-- ==== Sys2Proof/Word.lean ====
section
/-! DEFINITION. The word types of the S48 and the plainest operations on them. -/

namespace Sys2Proof

/-- A register byte, an SPI byte or a link byte. -/
abbrev Byte := BitVec 8

/-- A 16-bit number: a stamp, a period, a CHECK. -/
abbrev Half := BitVec 16

/-- The vector whose entry `i` is `f i`. -/
def tabulate {α : Type} {n : Nat} (f : Fin n → α) : Vector α n :=
  ⟨(List.ofFn f).toArray, by simp⟩

@[simp] theorem tabulate_getElem {α : Type} {n : Nat} (f : Fin n → α) (i : Nat) (h : i < n) :
    (tabulate f)[i] = f ⟨i, h⟩ := by
  simp [tabulate]

end Sys2Proof
end

