-- ==== Sys2Proof/Syntax.lean ====
section
/-! DEFINITION. The commands of the S48: one constructor for each row of spec/opcode_table.json, with the operands that the
row's event brings from outside. -/

namespace Sys2Proof

/-- The two masters that read and write registers (chapter 1): the local host at the SPI port, and the head on the link. -/
inductive Master where
  /-- the local host, over SPI -/
  | host
  /-- the remote head, by POKE -/
  | head
deriving DecidableEq, Repr

/-- The strap pins as a power-on or pin reset samples them (R191). -/
structure Straps where
  /-- ADDR4..ADDR0 -/
  addr : BitVec 5
  /-- HOSTLESS -/
  hostless : Bool
  /-- RATE1..RATE0 -/
  rate : BitVec 2
deriving DecidableEq, Repr

/-- One byte seen on LINKRX: its value, and whether its stop bit sampled low (R23). -/
structure RxByte where
  value : Byte
  stopFault : Bool
deriving DecidableEq, Repr

/-- The two frames that can wake the part from SLEEP (R189). -/
inductive WakeFrame where
  /-- a plain ROLLCALL to the own address -/
  | rollcall
  /-- a BEACON with these flags and time -/
  | beacon (flags : Byte) (time : BitVec 32)
deriving DecidableEq, Repr

/-- The event flag registers, written W1C (R179). -/
inductive FlagReg where
  /-- IFLAGS0, 0x10 -/
  | iflags0
  /-- IFLAGS1, 0x11 -/
  | iflags1
deriving DecidableEq, Repr

/-- The completion bitmaps, written W1C (R180). -/
inductive BitmapReg where
  /-- MBDONEMAP, 0x14 -/
  | mbDoneMap
  /-- FHITMAP, 0x15 -/
  | fHitMap
deriving DecidableEq, Repr

/-- The counters of access type CL (Table 1-1, R13). -/
inductive CounterReg where
  | crcErr | formErr | collide | unknown
  | iqDrops | mbDrops | mbStales | lDeny
deriving DecidableEq, Repr

/-- A command of the S48: one of the events and operations of the table.

`m : Master` says which master makes a register write: the host by the data byte of an SPI WRITE that is completing at that
register, the head by a POKE frame of that one byte. -/
inductive Instr where
  /-- POWER_ON_RESET: the supply rises into its operating range, with the strap pins at these levels. -/
  | powerOnReset (straps : Straps)
  /-- PIN_RESET: RESETN returns high, with the strap pins at these levels. -/
  | pinReset (straps : Straps)
  /-- SOFT_RESTART: the data byte 0x01 of an SPI WRITE completes at RESTART. -/
  | softRestart
  /-- REMOTE_RESTART: the step of the soft restart that a POKE to RESTART left pending. -/
  | remoteRestart
  /-- MS_TICK: the 1 ms tick, with the raw levels of SNS3..SNS0. -/
  | msTick (sns : BitVec 4)
  /-- SENSE_FLIP: the tick in which sense input `n` flips. -/
  | senseFlip (n : Fin 4) (sns : BitVec 4)
  /-- SILENCE_WATCHDOG_EXPIRY: the tick in which the silence watchdog expires. -/
  | silenceWatchdogExpiry (sns : BitVec 4)
  /-- QUIET_PERIOD_EXPIRY: the tick in which a limited quiet period runs out. -/
  | quietPeriodExpiry (sns : BitVec 4)
  /-- REFRESH_ELAPSE: the tick in which mailbox `i`'s refresh elapses. -/
  | refreshElapse (i : Fin 6) (sns : BitVec 4)
  /-- PHASE_END: the tick in which lamp `n`'s phase ends. -/
  | phaseEnd (n : Fin 12) (sns : BitVec 4)
  /-- SCAN_COMPLETION: a scan completes with these raw readings (bit k: key code k read pressed). -/
  | scanCompletion (keys : BitVec 48)
  /-- DEBOUNCED_RELEASE: the scan in which key `k`'s release is accepted. -/
  | debouncedRelease (k : Fin 48) (keys : BitVec 48)
  /-- DEBOUNCED_PRESS: the scan in which key `k`'s press is accepted. -/
  | debouncedPress (k : Fin 48) (keys : BitVec 48)
  /-- KEY_LONG: the scan in which the DOWN key `k` has been held for LONGTIME. -/
  | keyLong (k : Fin 48) (keys : BitVec 48)
  /-- KEY_REPEAT: the scan in which the LONG key `k` repeats. -/
  | keyRepeat (k : Fin 48) (keys : BitVec 48)
  /-- WAKE_SCAN: a scan completes in SLEEP with these raw readings. -/
  | wakeScan (keys : BitVec 48)
  /-- SLEEP_ENTRY: the end of a step in SETTLING at which nothing stands against sleep. -/
  | sleepEntry
  /-- OSCILLATOR_READY: waking ends. -/
  | oscillatorReady
  /-- FRAME_START: the falling edge of a start bit that begins a frame. -/
  | frameStart
  /-- HUNTING: the idle measure reaches 4 byte times. -/
  | hunting
  /-- FRAME_COMPLETION: the frame in progress, with these bytes seen since its start, completes. -/
  | frameCompletion (rx : List RxByte)
  /-- LINK_WAKE_REQUEST: the frame in progress completes as one of the two frames that wake the part. -/
  | linkWakeRequest (f : WakeFrame)
  /-- ROLLCALL: the frame in progress completes as a plain roll call to the own address. -/
  | rollcall
  /-- ROLLCALL_BY_SERIAL: it completes as a broadcast roll call with this serial and new address. -/
  | rollcallBySerial (serial : BitVec 48) (newAddr : Byte)
  /-- POLL: it completes as a POLL to the own address with these AV and TN. -/
  | poll (av : Bool) (tn : BitVec 3)
  /-- DELIVER: it completes as a DELIVER to the own address. -/
  | deliver (tn : BitVec 3) (channel : Byte) (payload : List Byte)
  /-- BROADCAST_DELIVER: it completes as a DELIVER to address 31. -/
  | broadcastDeliver (tn : BitVec 3) (channel : Byte) (payload : List Byte)
  /-- PEEK: it completes as a PEEK to the own address. -/
  | peek (addr : Byte) (count : Byte)
  /-- POKE: it completes as a POKE to the own address. -/
  | poke (addr : Byte) (data : List Byte)
  /-- HUSH: it completes as a HUSH to the own address, or broadcast. -/
  | hush (broadcast : Bool) (duration : Half)
  /-- BEACON: it completes as a BEACON with these flags and time. -/
  | beacon (flags : Byte) (time : BitVec 32)
  /-- CLASH: it completes as a satellite-kind frame whose SRC is the own address. -/
  | clash (kind : BitVec 4) (body : List Byte)
  /-- REPLY_START: the pending reply begins. -/
  | replyStart
  /-- REPLY_END: the last stop bit of the reply has been sent. -/
  | replyEnd
  /-- REPLY_ABORT: an echoed byte of the reply differs from the sent byte. -/
  | replyAbort
  /-- REPLY_CANCEL: a start bit appears while the reply is still pending. -/
  | replyCancel
  /-- WRITE: the command byte 0xA0 completes. -/
  | write
  /-- READ: the command byte 0xA1 completes. -/
  | read
  /-- STATUS: the command byte 0xA8 completes. -/
  | status
  /-- STATUS_STREAM: a further byte of a STATUS transaction completes. -/
  | statusStream (b : Byte)
  /-- WAKE: the command byte 0xAF completes. -/
  | wake
  /-- UNASSIGNED_COMMAND: a command byte completes that is unassigned or not admitted. -/
  | unassignedCommand (b : Byte)
  /-- IGNORED_BYTE: a byte completes in phase IGNORE. -/
  | ignoredByte (b : Byte)
  /-- ADDRESS_BYTE: the address byte of a WRITE or READ completes. -/
  | addressByte (b : Byte)
  /-- TURNAROUND: the turnaround byte of a READ completes. -/
  | turnaround (b : Byte)
  /-- READ_DATA: a data byte of a READ completes. -/
  | readData (b : Byte)
  /-- CSN_RISE: CSN rises. -/
  | csnRise
  /-- REGISTER_WRITE: a write of a data byte to the register at `addr`. -/
  | registerWrite (m : Master) (addr : Byte) (v : Byte)
  /-- GRANT: a local write of OWNER. -/
  | grant (v : Byte)
  /-- RECLAIM: a local write of OWNER. -/
  | reclaim (v : Byte)
  /-- RETURN: a remote write of OWNER. -/
  | giveBack (v : Byte)
  /-- SEIZE: a remote write of OWNER. -/
  | seize (v : Byte)
  /-- LOCK: a remote write of RLOCK. -/
  | lock (v : Byte)
  /-- UNLOCK: a remote write of RLOCK. -/
  | unlock (v : Byte)
  /-- REQUEST_RUN: a write of 0 to POWER. -/
  | requestRun (m : Master)
  /-- REQUEST_DOZE: a write of 1 to POWER. -/
  | requestDoze (m : Master)
  /-- REQUEST_SLEEP: a write of 2 to POWER. -/
  | requestSleep (m : Master)
  /-- LOCALTIME_STAGE: a write of the LOCALTIME byte at 0x0C + i. -/
  | localtimeStage (m : Master) (i : Fin 3) (v : Byte)
  /-- LOCALTIME_COMMIT: a write of LOCALTIME at 0x0F. -/
  | localtimeCommit (m : Master) (v : Byte)
  /-- FLAG_CLEAR: a local W1C write of IFLAGS0 or IFLAGS1. -/
  | flagClear (r : FlagReg) (v : Byte)
  /-- REFUSED_CLEAR: a local W1C write of IFLAGS0 with bit 0 set (the other bits as in `v`). -/
  | refusedClear (v : Byte)
  /-- BITMAP_CLEAR: a local W1C write of MBDONEMAP or FHITMAP. -/
  | bitmapClear (r : BitmapReg) (v : Byte)
  /-- COUNTER_CLEAR: a write of a CL counter. -/
  | counterClear (m : Master) (c : CounterReg) (v : Byte)
  /-- LINK_ENABLE: a write of LINKCTL with EN 1 (the other bits as in `v`). -/
  | linkEnable (m : Master) (v : Byte)
  /-- LINK_DISABLE: a write of LINKCTL with EN 0 (the other bits as in `v`). -/
  | linkDisable (m : Master) (v : Byte)
  /-- JTAKE: a local write of JTAKE. -/
  | jtake (v : Byte)
  /-- IQTAKE: a local write of IQTAKE. -/
  | iqtake (v : Byte)
  /-- LOAD: a write of 0x01 to MBCMD. -/
  | load (m : Master)
  /-- ARM: a write of 0x02 to MBCMD. -/
  | arm (m : Master)
  /-- CANCEL: a write of 0x03 to MBCMD. -/
  | cancel (m : Master)
  /-- MAILBOX_STAGE: a write of the mailbox staging byte at 0x6D + i. -/
  | mailboxStage (m : Master) (i : Fin 20) (v : Byte)
  /-- SCANNER_ENABLE: a write of SCANCTL with EN 1 (the other bits as in `v`). -/
  | scannerEnable (m : Master) (v : Byte)
  /-- SCANNER_DISABLE: a write of SCANCTL with EN 0 (the other bits as in `v`). -/
  | scannerDisable (m : Master) (v : Byte)
  /-- SENSE_ENABLE: a write of SENSECTLn with EN 1 (the other bits as in `v`). -/
  | senseEnable (m : Master) (n : Fin 4) (v : Byte)
  /-- SENSE_DISABLE: a write of SENSECTLn with EN 0 (the other bits as in `v`). -/
  | senseDisable (m : Master) (n : Fin 4) (v : Byte)
  /-- LGO_OFF: a write of 0x00 to LGO. -/
  | lgoOff (m : Master)
  /-- LGO_ON: a write of 0x01 to LGO. -/
  | lgoOn (m : Master)
  /-- LGO_BLINK: a write of 0x02 to LGO. -/
  | lgoBlink (m : Master)
  /-- LGO_PULSE: a write of 0x03 to LGO. -/
  | lgoPulse (m : Master)
  /-- LGO_FOLLOW: a write of 0x04 to LGO. -/
  | lgoFollow (m : Master)
  /-- LBIND_WRITE: a write of LBIND. -/
  | lbindWrite (m : Master) (v : Byte)
  /-- RESET_HELD_LOW: RESETN goes low. -/
  | resetHeldLow
  /-- SUPPLY_BELOW_RANGE: the supply falls below its operating range. -/
  | supplyBelowRange
  /-- CSN_FALL: CSN falls. -/
  | csnFall
  /-- BYTE_WHILE_AWAITING_IDLE: a byte begins on the line while the receiver is awaiting idle. -/
  | byteWhileAwaitingIdle (b : Byte)
deriving DecidableEq, Repr

end Sys2Proof
end

