-- ==== Sys2Proof/Machine/Blocks.lean ====
section
/-! DEFINITION. The state of each block of the S48 (chapters 1 to 11), as plain data. -/

namespace Sys2Proof.Machine

/-! ### Pins and supply -/

/-- The levels that the part's own rules read: CSN (R4, R187), RESETN, the supply (R191) and the key switches (R135). -/
structure Pins where
  /-- CSN is low. -/
  csnLow : Bool
  /-- RESETN is held low. -/
  resetnLow : Bool
  /-- The supply is below its operating range. -/
  supplyLow : Bool
  /-- The key switches as the last scan found them: bit k for key code k, 1 while pressed (log 18). -/
  switches : BitVec 48
deriving DecidableEq, Repr

/-! ### Host port (chapter 1) -/

/-- The transaction phases of section 1.1. -/
inductive Phase where
  | awaitCommand | awaitAddress | turnaround | writeData | readData | statusStream | ignore
deriving DecidableEq, Repr

/-- The command of the current transaction (R5). -/
inductive HostCommand where
  | none | write | read | status | wake | unassigned
deriving DecidableEq, Repr

/-- The five snapshotted fields of R14. -/
inductive SnapField where
  | localTime | journal | inbound | mbPeriod | keymap
deriving DecidableEq, Repr

/-- A pending capture (R15): the field and the copy of its whole content. -/
structure Capture where
  field : SnapField
  bytes : List Byte
deriving DecidableEq, Repr

/-- The host port's transaction state (section 1.1). -/
structure HostPort where
  phase : Phase
  command : HostCommand
  /-- the address pointer -/
  pointer : Byte
  /-- the output byte, shifted out next on SDO -/
  out : Byte
  capture : Option Capture
deriving DecidableEq, Repr

/-- The content of a mailbox, and of a master's mailbox staging (R17, R93). -/
structure Mail where
  chan : Byte
  len : Byte
  /-- in units of 10 ms; 0 means one-shot -/
  period : Half
  data : Vector Byte 16
deriving DecidableEq, Repr

/-- One master's snapshots of the five snapshotted fields (R15), lowest address first. -/
structure Snapshots where
  time : List Byte
  journal : List Byte
  inbound : List Byte
  period : List Byte
  keymap : List Byte
deriving DecidableEq, Repr

/-- One master's own copies: selectors, LGOLEVEL, staging and snapshots (R15 to R18). -/
structure Copies where
  fsel : Fin 8
  mbsel : Fin 6
  lsel : Fin 12
  lgoLevel : BitVec 4
  /-- the time staging, most significant byte first -/
  time : Vector Byte 4
  /-- the mailbox staging -/
  mail : Mail
  snap : Snapshots
deriving DecidableEq, Repr

/-- The local refusal capture: REFADDR, REFCAUSE, REFCOUNT (section 1.7). -/
structure RefusalCapture where
  addr : Byte
  cause : Byte
  count : Byte
deriving DecidableEq, Repr

/-- The causes of the access check in the order of R19. -/
inductive Cause where
  | readOnly | localOnly | notOwner | busy | range | mismatch
deriving DecidableEq, Repr

/-! ### Link engine (chapter 2) -/

/-- The link states of section 2.9. -/
inductive LinkState where
  | off | listen | joined | hushed | clashed
deriving DecidableEq, Repr

/-- The quiet-period timer (R45): stopped, unlimited, or the milliseconds left. -/
inductive Quiet where
  | stopped
  | untilRollcall
  | left (ms : Nat)
deriving DecidableEq, Repr

/-- The receiver's conditions (R24). -/
inductive RxCond where
  | hunting | receiving | awaitingIdle
deriving DecidableEq, Repr

/-- Receiver activity (R24): the condition, the idle measure in byte times as the last event fixed it, the bytes of the frame
in progress, whether further bytes arrived after the 54th, and whether a byte had a stop fault. -/
structure Receiver where
  cond : RxCond
  idle : Nat
  bytes : List Byte
  oversize : Bool
  fault : Bool
deriving DecidableEq, Repr

/-- Transmitter activity (R34, R35), with the bytes of the composed reply. -/
inductive Transmitter where
  | idle
  | pending (reply : List Byte)
  | transmitting (reply : List Byte)
deriving DecidableEq, Repr

/-- The state of the link engine (table at the head of chapter 2). -/
structure Link where
  en : Bool
  rate : BitVec 2
  addr : BitVec 5
  silence : Byte
  state : LinkState
  session : Byte
  watchdog : Nat
  quiet : Quiet
  rx : Receiver
  tx : Transmitter
  crcErr : Byte
  formErr : Byte
  collide : Byte
  unknown : Byte
deriving DecidableEq, Repr

/-! ### Ownership (chapter 3) -/

/-- The six groups of R51, in the order of their OWNER and RLOCK bits. -/
inductive Group where
  | sys | link | input | lamp | outbox | inbox
deriving DecidableEq, Repr

/-- OWNER, RLOCK and the restart pending indication. -/
structure Ownership where
  owner : BitVec 6
  rlock : BitVec 6
  restartPending : Bool
deriving DecidableEq, Repr

/-! ### Event journal (chapter 4) -/

/-- The record kinds of R69. -/
inductive JKind where
  | keyDown | keyLong | keyRepeat | keyUp | ghost | senseRise | senseFall | lampEnd | woke
deriving DecidableEq, Repr

/-- The routing classes of section 4.2. -/
inductive RouteClass where
  | keys | sense | system
deriving DecidableEq, Repr

/-- What a producing block hands to the journal (R68). -/
structure Event where
  kind : JKind
  subject : Byte
  detail : Byte
deriving DecidableEq, Repr

/-- A journal record (R68). -/
structure JRecord where
  seq : Byte
  kind : JKind
  subject : Byte
  detail : Byte
  stamp : Half
  wantLocal : Bool
  wantRemote : Bool
  pinned : Bool
deriving DecidableEq, Repr

/-- The event journal (table at the head of chapter 4). The batch in flight is the pinned records in list order, with the
lost value held in `batch`. -/
structure Journal where
  list : List JRecord
  nextSeq : Byte
  localLost : Byte
  remoteLost : Byte
  presentedLoss : Byte
  batch : Option Byte
  /-- JROUTE -/
  route : BitVec 6
  /-- JPOLICY -/
  policy : Byte
  /-- JBATCH -/
  batchSize : Byte
deriving DecidableEq, Repr

/-! ### Outbound service (chapter 5) -/

/-- The mailbox states of R93. -/
inductive MbState where
  | empty | ready | offered
deriving DecidableEq, Repr

/-- A mailbox record (R93). -/
structure Mailbox where
  mail : Mail
  state : MbState
  /-- refresh running -/
  running : Bool
  /-- refresh remaining, in ticks -/
  remaining : Nat
  cancelPending : Bool
  drops : Byte
  stales : Byte
deriving DecidableEq, Repr

/-- What is offered to the head: a mailbox or the journal batch (section 5.1). -/
inductive Item where
  | mailbox (i : Fin 6)
  | batch
deriving DecidableEq, Repr

/-- The in-flight item with its turn and resend count (section 5.1). -/
structure InFlight where
  item : Item
  turn : BitVec 3
  resends : Nat
deriving DecidableEq, Repr

/-- The outbound service (section 5.1). -/
structure Outbound where
  nextTurn : BitVec 3
  inFlight : Option InFlight
  /-- journal passed -/
  passed : Nat
  boxes : Vector Mailbox 6
  resend : Byte
  jrank : Byte
  patience : Byte
deriving DecidableEq, Repr

/-! ### Inbound service (chapter 6) -/

/-- The delivery actions of R117. -/
inductive Action where
  | queue | lamp | both | discard
deriving DecidableEq, Repr

/-- A filter entry: FCTL, FCHAN, FMASK (R117, R122). -/
structure Filter where
  en : Bool
  action : Action
  notify : Bool
  chan : Byte
  mask : BitVec 6
deriving DecidableEq, Repr

/-- A record of the inbound queue (R124); its length is the number of payload bytes. -/
structure IqRecord where
  tag : Byte
  chan : Byte
  payload : List Byte
  /-- filter index 0..8 -/
  filt : Nat
  /-- origin BROADCAST -/
  broadcast : Bool
  stamp : Half
deriving DecidableEq, Repr

/-- The inbound service (R112). -/
structure Inbound where
  lastTurn : BitVec 3
  filters : Vector Filter 8
  /-- IQDEFAULT -/
  dflt : Action
  queue : List IqRecord
  nextTag : Byte
  drops : Byte
deriving DecidableEq, Repr

/-! ### Key scanner (chapter 7) -/

/-- The key states of R136. -/
inductive KeyState where
  | up | down | long | blocked | suspect
deriving DecidableEq, Repr

/-- What the scanner holds for one key (R135, R136). -/
structure Key where
  state : KeyState
  deb : Nat
  hold : Nat
  rept : Nat
  ordinal : Byte
deriving DecidableEq, Repr

/-- The key scanner. `due` is the model's own: a scan completion has fallen due (R134) and is not processed yet. -/
structure Scanner where
  en : Bool
  sleepWake : Bool
  /-- drive lines in use, less 1 -/
  drives : BitVec 3
  /-- sense lines in use, less 1 -/
  senses : BitVec 3
  period : Byte
  debounce : Byte
  longTime : Byte
  rept : Byte
  clock : Nat
  due : Bool
  keys : Vector Key 48
deriving DecidableEq, Repr

/-! ### Sense inputs and local time (chapter 8) -/

/-- The EDGE field of SENSECTLn (R150). -/
inductive Edge where
  | rise | fall | both
deriving DecidableEq, Repr

/-- A sense input: SENSECTLn and its running state (R150). -/
structure SenseInput where
  en : Bool
  edge : Edge
  wake : Bool
  debounce : BitVec 4
  primed : Bool
  level : Bool
  counter : Nat
deriving DecidableEq, Repr

/-- Sense and timebase: the inputs, local time (R156) and time set since join (R159). -/
structure Sense where
  inputs : Vector SenseInput 4
  localTime : BitVec 32
  timeSet : Bool
deriving DecidableEq, Repr

/-! ### Lamp engine (chapter 9) -/

/-- The controller attribute LCFG (R165). -/
inductive Controller where
  | localOnly | remoteOnly | either
deriving DecidableEq, Repr

/-- The lamp phases of R162. -/
inductive LampPhase where
  | off | on | blinkLit | blinkDark | pulseWait | pulseLit | followLit | followDark
deriving DecidableEq, Repr

/-- The ops of R167. -/
inductive LampOp where
  | off | on | blink | pulse | follow
deriving DecidableEq, Repr

/-- A lamp record (R162). `remaining` is the remaining phase time in ticks and 0 in an untimed phase; `count` is the remaining
count, with 0 for endless, and 0 outside BLINK. -/
structure Lamp where
  ctrl : Controller
  bind : Byte
  lon : Byte
  loff : Byte
  lcount : Byte
  ldelay : Byte
  lwidth : Byte
  phase : LampPhase
  level : BitVec 4
  remaining : Nat
  count : Nat
deriving DecidableEq, Repr

/-- A well-formed lamp command of a delivery (R129): `target` none means all lamps. -/
structure LampCommand where
  op : LampOp
  target : Option (Fin 12)
  level : BitVec 4
deriving DecidableEq, Repr

/-- The lamp engine: lamps, LDENY (R174), the down set (R172; bit k for key code k). -/
structure Lamps where
  lamps : Vector Lamp 12
  ldeny : Byte
  down : BitVec 48
deriving DecidableEq, Repr

/-! ### Interrupt and attention (chapter 10) -/

/-- The flags, enables and bitmaps. `flags1` holds the event flags of IFLAGS1 (bits 5..0); its level flags JRNL and INBOX
follow the journal and the inbound queue (R178). -/
structure Attention where
  flags0 : Byte
  flags1 : Byte
  enable0 : Byte
  enable1 : Byte
  mbDone : Byte
  fHit : Byte
deriving DecidableEq, Repr

/-! ### Power and reset (chapter 11) -/

/-- The power states of section 11.1. -/
inductive PowerState where
  | run | doze | settling | sleep | waking
deriving DecidableEq, Repr

/-- The wake causes of R189. -/
inductive WakeCause where
  | key | sense | link | host
deriving DecidableEq, Repr

/-- The power and reset block. `wakeTicks` is the model's own: ms ticks since the step that entered WAKING (R190). -/
structure Power where
  straps : Straps
  /-- POWER, the power request -/
  power : Byte
  state : PowerState
  /-- cause of the last completed wake -/
  cause : WakeCause
  /-- a wake has completed since the last reset -/
  woken : Bool
  /-- cause and detail of the wake under way -/
  request : Option (WakeCause × Byte)
  wakeTicks : Nat
deriving DecidableEq, Repr

end Sys2Proof.Machine
end

