-- ==== Sys2Proof/Config.lean ====
section
/-! DEFINITION. The constants that the part fixes for every S48. The manual leaves no result of a command open, so there
is no free value here. -/

namespace Sys2Proof.Config

/-- IDENT (0x00), the part identifier: chapter 1, register summary. -/
abbrev ident : Byte := 0x3B#8

/-- REVISION (0x01), the silicon revision: chapter 1, register summary. -/
abbrev revision : Byte := 0x02#8

/-- How many records the journal holds: R72. -/
abbrev journalRecords : Nat := 64

/-- How many records the inbound queue holds: R124. -/
abbrev queueRecords : Nat := 12

/-- How many bytes of a frame in progress are stored: R24. -/
abbrev frameBytes : Nat := 54

/-- How many keys are counted (DOWN or LONG) at one time at most: R136. -/
abbrev rollover : Nat := 4

/-- The mailbox count a HELLO carries: R30. -/
abbrev mailboxCount : Byte := 6#8

/-- The lamp count a HELLO carries: R30. -/
abbrev lampCount : Byte := 12#8

end Sys2Proof.Config
end

