-- ==== Sys2Proof/Machine/ResetValues.lean ====
section
/-! DEFINITION. The values of Table 11-1 (R193) for each block after power-on reset; the soft restart (Machine/Resets.lean)
takes the same values where the table says so. -/

namespace Sys2Proof.Machine

/-- Nothing staged, and what a mailbox holds after power-on: zero (R17, R111). -/
def Mail.zero : Mail := { chan := 0, len := 0, period := 0, data := Vector.replicate 16 0 }

/-- Snapshots after every reset: zero (R15). -/
def Snapshots.zero : Snapshots :=
  { time := List.replicate 4 0, journal := List.replicate 7 0, inbound := List.replicate 22 0,
    period := List.replicate 2 0, keymap := List.replicate 6 0 }

/-- A master's copies after power-on (R16 to R18). -/
def Copies.powerOn : Copies :=
  { fsel := 0, mbsel := 0, lsel := 0, lgoLevel := 0, time := Vector.replicate 4 0, mail := Mail.zero,
    snap := Snapshots.zero }

/-- The host port after every reset (R4, R193). The manual gives the phase, the pointer and the capture; the output byte (log 5)
and the command of the current transaction (DESIGN CHOICE, log 19) are the model's. -/
def HostPort.afterReset (csnLow : Bool) : HostPort :=
  { phase := if csnLow then .ignore else .awaitCommand, command := .none, pointer := 0, out := 0xFF, capture := none }

/-- The refusal capture after every reset (R22). -/
def RefusalCapture.afterReset : RefusalCapture := { addr := 0, cause := 0, count := 0 }

/-- The receiver whenever it starts afresh: awaiting idle with an idle measure of 0 (R24). -/
def Receiver.awaiting : Receiver := { cond := .awaitingIdle, idle := 0, bytes := [], oversize := false, fault := false }

/-- LINKADDR from the straps: 31 is taken as 0 (R42). -/
def strapAddr (p : Straps) : BitVec 5 := if p.addr = 31#5 then 0 else p.addr

/-- The link engine after power-on (R42, R193). -/
def Link.powerOn (p : Straps) : Link :=
  { en := p.hostless, rate := p.rate, addr := strapAddr p, silence := 50,
    state := if p.hostless then .listen else .off,
    session := 0, watchdog := 0, quiet := .stopped, rx := Receiver.awaiting, tx := .idle,
    crcErr := 0, formErr := 0, collide := 0, unknown := 0 }

/-- Ownership after power-on (R52, R57). -/
def Ownership.powerOn (p : Straps) : Ownership :=
  { owner := if p.hostless then 0x3F#6 else 0, rlock := 0, restartPending := false }

/-- The journal after power-on (R90). -/
def Journal.powerOn (p : Straps) : Journal :=
  { list := [], nextSeq := 0, localLost := 0, remoteLost := 0, presentedLoss := 0, batch := none,
    route := if p.hostless then 0x2A#6 else 0x15#6, policy := 0, batchSize := 4 }

/-- A mailbox after power-on (R111). The time left of a refresh that is not running is the model's 0 (DESIGN CHOICE, log 20). -/
def Mailbox.powerOn : Mailbox :=
  { mail := Mail.zero, state := .empty, running := false, remaining := 0, cancelPending := false, drops := 0, stales := 0 }

/-- The outbound service after power-on (R111). -/
def Outbound.powerOn : Outbound :=
  { nextTurn := 0, inFlight := none, passed := 0, boxes := Vector.replicate 6 Mailbox.powerOn,
    resend := 6, jrank := 3, patience := 4 }

/-- A filter entry after power-on (R131). -/
def Filter.powerOn : Filter := { en := false, action := .queue, notify := false, chan := 0, mask := 0x3F#6 }

/-- The inbound service after power-on (R131). -/
def Inbound.powerOn (p : Straps) : Inbound :=
  { lastTurn := 7, filters := Vector.replicate 8 Filter.powerOn, dflt := if p.hostless then .discard else .queue,
    queue := [], nextTag := 0, drops := 0 }

/-- A key in state UP with counters 0 (R136, R149). -/
def Key.up : Key := { state := .up, deb := 0, hold := 0, rept := 0, ordinal := 0 }

/-- The key scanner after power-on (R149). -/
def Scanner.powerOn : Scanner :=
  { en := false, sleepWake := false, drives := 7, senses := 5, period := 4, debounce := 3, longTime := 40, rept := 0,
    clock := 0, due := false, keys := Vector.replicate 48 Key.up }

/-- A sense input after power-on: SENSECTLn 0x50, not primed (R155). -/
def SenseInput.powerOn : SenseInput :=
  { en := false, edge := .rise, wake := false, debounce := 5, primed := false, level := false, counter := 0 }

/-- Sense inputs and local time after power-on (R155, R156, R159). -/
def Sense.powerOn : Sense := { inputs := Vector.replicate 4 SenseInput.powerOn, localTime := 0, timeSet := false }

/-- Lamp `n` after power-on (R176). -/
def Lamp.powerOn (n : Nat) : Lamp :=
  { ctrl := .either, bind := BitVec.ofNat 8 n, lon := 50, loff := 50, lcount := 0, ldelay := 0, lwidth := 50,
    phase := .off, level := 0, remaining := 0, count := 0 }

/-- The lamp engine after power-on (R176). -/
def Lamps.powerOn : Lamps := { lamps := tabulate fun n : Fin 12 => Lamp.powerOn n, ldeny := 0, down := 0 }

/-- Interrupt and attention after power-on: RESTARTED alone is set (R185). -/
def Attention.powerOn : Attention := { flags0 := 0, flags1 := 0x10, enable0 := 0, enable1 := 0, mbDone := 0, fHit := 0 }

/-- Power and reset after power-on, with the straps as sampled (R191, R193). -/
def Power.powerOn (p : Straps) : Power :=
  { straps := p, power := 0, state := .run, cause := .key, woken := false, request := none, wakeTicks := 0 }

end Sys2Proof.Machine
end

