-- ==== Sys2Proof/Machine/State.lean ====
section
/-! DEFINITION. The state of the S48, its stops, and the state right after reset. -/

namespace Sys2Proof.Machine

/-- The whole state of the part, block by block, and the queue of commands that wait. -/
structure State where
  pins : Pins
  hp : HostPort
  /-- the local host's copies -/
  host : Copies
  /-- the head's copies -/
  head : Copies
  rc : RefusalCapture
  link : Link
  own : Ownership
  jr : Journal
  ob : Outbound
  ib : Inbound
  ks : Scanner
  st : Sense
  lm : Lamps
  ia : Attention
  pr : Power
  /-- SERIAL, fixed at manufacture (R13) -/
  serial : BitVec 48
  /-- the commands that wait, first in, first out -/
  pending : List Instr
deriving DecidableEq, Repr

/-- The faults of the part: none. The manual gives every event in every state an outcome (a refusal in the sense of R3 is a
next state), so nothing raises a fault. -/
inductive Fault where
deriving DecidableEq, Repr

/-- The refusals of the model. -/
inductive Refusal where
  /-- An arm of `exec` whose command has no meaning yet; raised by no arm. Safe: the model stops where the part goes on. -/
  | notModelled (mnemonic : String)
deriving DecidableEq, Repr

/-- The strap pins of `State.reset`: all low, the hosted arrangement at address 0 and rate 0 (log 6). -/
def State.resetStraps : Straps := { addr := 0, hostless := false, rate := 0 }

/-- The machine right after power-on reset (R193), with CSN high, the straps all low and no key pressed (logs 3 to 6 and
18), and no command waiting. -/
def State.reset : State :=
  { pins := { csnLow := false, resetnLow := false, supplyLow := false, switches := 0 }
    hp := HostPort.afterReset false
    host := Copies.powerOn
    head := Copies.powerOn
    rc := RefusalCapture.afterReset
    link := Link.powerOn State.resetStraps
    own := Ownership.powerOn State.resetStraps
    jr := Journal.powerOn State.resetStraps
    ob := Outbound.powerOn
    ib := Inbound.powerOn State.resetStraps
    ks := Scanner.powerOn
    st := Sense.powerOn
    lm := Lamps.powerOn
    ia := Attention.powerOn
    pr := Power.powerOn State.resetStraps
    serial := 0
    pending := [] }

end Sys2Proof.Machine
end

