-- ==== Sys2Proof/Decode.lean ====
section
/-! DEFINITION. The command that a word spells by the bits of spec/opcode_table.json. No row of the table gives a command any
bits: the S48 has no instruction words, and what comes from outside is an SPI byte, a frame, an edge or a tick (R1). -/

namespace Sys2Proof

/-- No word spells a command, since no row of the table gives bits (log 15). -/
def decodeTableWord (_nbits _w : Nat) : Option Instr := none

end Sys2Proof
end

