-- ==== Sys2Proof/Machine/Ops.lean ====
section
/-! DEFINITION. The named operations that every block uses: counting, bit fields and byte order, the master's copies, the flag
setters, and the frame that every event step stands in. -/

namespace Sys2Proof.Machine

/-! ### Counting (R3, R78) -/

/-- A counter after one counting event: up by 1 until it holds 255, where it stays (R3). -/
def counted (c : Byte) : Byte := if c = 255#8 then c else c + 1#8

/-- The sum of two counts, saturating at 255 (R78). -/
def satAdd (a b : Byte) : Byte := if 255 ≤ a.toNat + b.toNat then 255#8 else a + b

/-- A time increased by `n`, saturating at 65535 (R136). -/
def satTime (t n : Nat) : Nat := min 65535 (t + n)

/-! ### Bit fields and byte order -/

/-- The byte whose bit `n` is `b` and whose other bits are 0. -/
def bit (b : Bool) (n : Nat) : Byte := if b then 1#8 <<< n else 0#8

/-- A field placed at bit `n` of a byte. -/
def fieldAt {w : Nat} (v : BitVec w) (n : Nat) : Byte := v.setWidth 8 <<< n

/-- The high byte of a 16-bit number. -/
def hiByte (h : Half) : Byte := h.extractLsb' 8 8

/-- The low byte of a 16-bit number. -/
def loByte (h : Half) : Byte := h.extractLsb' 0 8

/-- The 16-bit number with these bytes, high byte first (R14). -/
def halfOf (hi lo : Byte) : Half := hi ++ lo

/-- The four bytes of a 32-bit number, most significant first (R14). -/
def bytes32 (w : BitVec 32) : List Byte :=
  [w.extractLsb' 24 8, w.extractLsb' 16 8, w.extractLsb' 8 8, w.extractLsb' 0 8]

/-- The 32-bit number with these bytes, most significant first (R14). -/
def wordOf (a b c d : Byte) : BitVec 32 := a ++ b ++ c ++ d

/-- The six bytes of the serial number, in the order of addresses 0x18 to 0x1D (R13). -/
def serialBytes (w : BitVec 48) : List Byte :=
  [w.extractLsb' 40 8, w.extractLsb' 32 8, w.extractLsb' 24 8, w.extractLsb' 16 8, w.extractLsb' 8 8, w.extractLsb' 0 8]

/-- A set of key codes as the bytes of KEYMAP: byte `n` holds key codes 8n to 8n + 7, key code 8n in bit 0 (R148). -/
def keymapBytes (w : BitVec 48) : List Byte :=
  [w.extractLsb' 0 8, w.extractLsb' 8 8, w.extractLsb' 16 8, w.extractLsb' 24 8, w.extractLsb' 32 8, w.extractLsb' 40 8]

/-- Byte `i` of a run of bytes, 0x00 beyond its end. -/
def byteAt (bs : List Byte) (i : Nat) : Byte := bs.getD i 0#8

/-! ### Each master's own copies (R15 to R18) -/

/-- The copies of master `m`. -/
def State.copies (s : State) : Master → Copies
  | .host => s.host
  | .head => s.head

/-- The state with master `m`'s copies changed by `f`; the other master's are untouched. -/
def State.updCopies (m : Master) (f : Copies → Copies) (s : State) : State :=
  match m with
  | .host => { s with host := f s.host }
  | .head => { s with head := f s.head }

/-! ### Power state tests -/

/-- The power state is RUN, DOZE or SETTLING: the part is neither asleep nor waking. -/
def PowerState.awake : PowerState → Bool
  | .run | .doze | .settling => true
  | .sleep | .waking => false

/-- The power state is RUN, DOZE or SETTLING. -/
def State.awake (s : State) : Bool := s.pr.state.awake

/-- The part is held in reset: RESETN is low or the supply is below its range (R191). -/
def State.held (s : State) : Bool := s.pins.resetnLow || s.pins.supplyLow

/-! ### Setting event flags (R177) -/

/-- IFLAGS0 bits. -/
def linkChg : Byte := 0x80#8
/-- LOSTHEAD. -/
def lostHead : Byte := 0x40#8
/-- CLASH. -/
def clashFlag : Byte := 0x20#8
/-- RXERR. -/
def rxErr : Byte := 0x10#8
/-- MBDONE. -/
def mbDoneFlag : Byte := 0x08#8
/-- MBDROP. -/
def mbDropFlag : Byte := 0x04#8
/-- MBSTALE. -/
def mbStaleFlag : Byte := 0x02#8
/-- REFUSED. -/
def refusedFlag : Byte := 0x01#8
/-- IFLAGS1 bits: TIMESET. -/
def timeSetFlag : Byte := 0x20#8
/-- RESTARTED. -/
def restartedFlag : Byte := 0x10#8
/-- JLOSS. -/
def jLossFlag : Byte := 0x08#8
/-- IQDROP. -/
def iqDropFlag : Byte := 0x04#8
/-- FHIT. -/
def fHitFlag : Byte := 0x02#8
/-- WOKE. -/
def wokeFlag : Byte := 0x01#8

/-- Sets the event flags `m` of IFLAGS0. -/
def State.raise0 (m : Byte) (s : State) : State := { s with ia.flags0 := s.ia.flags0 ||| m }

/-- Sets the event flags `m` of IFLAGS1. -/
def State.raise1 (m : Byte) (s : State) : State := { s with ia.flags1 := s.ia.flags1 ||| m }

end Sys2Proof.Machine
end

