-- ==== Sys2Proof/Machine/Journal.lean ====
section
/-! DEFINITION. The event journal (chapter 4): records, routing, the two consumers, loss accounting and the full-journal
policies. -/

namespace Sys2Proof.Machine

/-! ### Kinds and classes (R69) -/

/-- The kind code. -/
def JKind.code : JKind → Byte
  | .keyDown => 1 | .keyLong => 2 | .keyRepeat => 3 | .keyUp => 4 | .ghost => 5
  | .senseRise => 6 | .senseFall => 7 | .lampEnd => 8 | .woke => 9

/-- The routing class of a kind. -/
def JKind.routeClass : JKind → RouteClass
  | .keyDown | .keyLong | .keyRepeat | .keyUp | .ghost => .keys
  | .senseRise | .senseFall => .sense
  | .lampEnd | .woke => .system

/-! ### What the journal shows (R73, R74, R75, R79) -/

/-- The presented record: the oldest with want_local (R74). -/
def Journal.presented (j : Journal) : Option JRecord := j.list.find? (·.wantLocal)

/-- JLOCALCOUNT. -/
def Journal.localCount (j : Journal) : Nat := j.list.countP (·.wantLocal)

/-- JREMOTECOUNT: records with want_remote, pinned or not. -/
def Journal.remoteCount (j : Journal) : Nat := j.list.countP (·.wantRemote)

/-- The records with want_remote that are not pinned, for digest byte D0 (R79). -/
def Journal.waitingRemote (j : Journal) : Nat := j.list.countP fun r => r.wantRemote && !r.pinned

/-- The journal is eligible for a batch (R79). -/
def Journal.eligible (j : Journal) : Bool := j.list.any fun r => r.wantRemote && !r.pinned

/-- The seven bytes of the journal window (R75); all 0x00 with no presented record. -/
def Journal.window (j : Journal) : List Byte :=
  match j.presented with
  | some r => [r.seq, r.kind.code, r.subject, r.detail, hiByte r.stamp, loByte r.stamp, j.presentedLoss]
  | none => List.replicate 7 0

/-! ### Appending and membership (R70 to R74) -/

/-- The record that has become the presented record takes the local lost counter as its presented loss (R74); with none
presented the presented loss is 0. -/
def Journal.represent (j : Journal) : Journal :=
  match j.presented with
  | some _ => { j with presentedLoss := j.localLost, localLost := 0 }
  | none => { j with presentedLoss := 0 }

/-- Places a record at the tail (R70, R72): it becomes the presented record if it has want_local and none was presented. -/
def Journal.append (r : JRecord) (j : Journal) : Journal :=
  let j' := { j with list := j.list ++ [r], nextSeq := j.nextSeq + 1 }
  if r.wantLocal && j.presented.isNone then j'.represent else j'

/-- The oldest record is pinned (R86). -/
def Journal.oldestPinned (j : Journal) : Bool := (j.list.head?.map (·.pinned)).getD false

/-- The oldest record has want_local. -/
def Journal.oldestLocal (j : Journal) : Bool := (j.list.head?.map (·.wantLocal)).getD false

/-- The first four steps of R85: the oldest record is removed, counted as lost to each consumer that wanted it (the presented
loss going back to the local lost counter first), and the next record is presented. -/
def Journal.evict (j : Journal) : Journal :=
  match j.list with
  | [] => j
  | r :: rest =>
    let j1 := { j with list := rest, remoteLost := if r.wantRemote then counted j.remoteLost else j.remoteLost }
    if r.wantLocal then
      Journal.represent { j1 with localLost := counted (satAdd j.localLost j.presentedLoss), presentedLoss := 0 }
    else j1

/-- R84: the event is lost to each consumer that it was routed to. -/
def Journal.lose (wantLocal wantRemote : Bool) (j : Journal) : Journal :=
  { j with localLost := if wantLocal then counted j.localLost else j.localLost
           remoteLost := if wantRemote then counted j.remoteLost else j.remoteLost }

/-- The routing field of a class in JROUTE (section 4.2): 0 NONE, 1 LOCAL, 2 REMOTE, 3 BOTH. -/
def Journal.routing (j : Journal) : RouteClass → BitVec 2
  | .keys => j.route.extractLsb' 0 2
  | .sense => j.route.extractLsb' 2 2
  | .system => j.route.extractLsb' 4 2

/-- What becomes of one event that a producer hands over (R71, R72, R84 to R86), and whether the local lost counter was counted
(R87). `linkOn`: the link is not OFF. -/
def Journal.handOver (linkOn : Bool) (stamp : Half) (j : Journal) (e : Event) : Journal × Bool :=
  let route := j.routing e.kind.routeClass
  let wantLocal := route.getLsbD 0
  let wantRemote := route.getLsbD 1 && linkOn
  if !wantLocal && !wantRemote then (j, false)
  else
    let r : JRecord :=
      { seq := j.nextSeq, kind := e.kind, subject := e.subject, detail := e.detail, stamp := stamp,
        wantLocal := wantLocal, wantRemote := wantRemote, pinned := false }
    if j.list.length < Config.journalRecords then (j.append r, false)
    else if j.policy = 1#8 && !j.oldestPinned then (j.evict.append r, j.oldestLocal)
    else (j.lose wantLocal wantRemote, wantLocal)

/-! ### The local consumer (R76) -/

/-- A record with at least one want: the only records that stay in the list (R73). -/
def JRecord.wanted (r : JRecord) : Bool := r.wantLocal || r.wantRemote

/-- The list with want_local cleared on its oldest record that has it, that record removed if it has no want left. -/
def clearOldestLocal : List JRecord → List JRecord
  | [] => []
  | r :: rest =>
    if r.wantLocal then (if r.wantRemote then { r with wantLocal := false } :: rest else rest)
    else r :: clearOldestLocal rest

/-- An accepted take (R76). -/
def Journal.take (j : Journal) : Journal := Journal.represent { j with list := clearOldestLocal j.list }

/-! ### The remote consumer (R80 to R83, R88) -/

/-- The list with its first `k` records with want_remote pinned. -/
def pinFirst : Nat → List JRecord → List JRecord
  | 0, rs => rs
  | _, [] => []
  | k + 1, r :: rest =>
    if r.wantRemote then { r with pinned := true } :: pinFirst k rest else r :: pinFirst (k + 1) rest

/-- The records of the batch, in batch order. -/
def Journal.batchRecords (j : Journal) : List JRecord := j.list.filter (·.pinned)

/-- R80: up to JBATCH records are pinned and the remote lost counter moves into the batch's lost value. -/
def Journal.composeBatch (j : Journal) : Journal :=
  { j with list := pinFirst j.batchSize.toNat j.list, batch := some j.remoteLost, remoteLost := 0 }

/-- Clears want_remote on the batch's records, unpins them and removes those with no want left (R81, R83). -/
def releasePinned (rs : List JRecord) : List JRecord :=
  (rs.map fun r => if r.pinned then { r with wantRemote := false, pinned := false } else r).filter (·.wanted)

/-- R81: the batch in flight is acknowledged. -/
def Journal.ackBatch (j : Journal) : Journal := { j with list := releasePinned j.list, batch := none }

/-- R82: the batch in flight, if any, is returned. -/
def Journal.returnBatch (j : Journal) : Journal :=
  { j with list := j.list.map fun r => { r with pinned := false }
           remoteLost := satAdd j.remoteLost (j.batch.getD 0), batch := none }

/-- R83: the batch in flight is dropped; its lost value and its records are counted as lost to the head. -/
def Journal.dropBatch (j : Journal) : Journal :=
  { j with list := releasePinned j.list
           remoteLost := satAdd (satAdd j.remoteLost (j.batch.getD 0)) (BitVec.ofNat 8 j.batchRecords.length)
           batch := none }

/-- R88: every remote want is cleared, records left with no want are removed, and the remote lost counter becomes 0. -/
def Journal.clearRemote (j : Journal) : Journal :=
  { j with list := (j.list.map fun r => { r with wantRemote := false }).filter (·.wanted), remoteLost := 0 }

/-- The journal batch of an ANSWER (Table 2-3, R80): type, record count, lost, and six bytes a record. -/
def Journal.batchItem (j : Journal) : List Byte :=
  let rs := j.batchRecords
  [0x02#8, BitVec.ofNat 8 rs.length, j.batch.getD 0] ++
    rs.flatMap fun r => [r.seq, r.kind.code, r.subject, r.detail, hiByte r.stamp, loByte r.stamp]

/-! ### In the whole machine -/

/-- The stamp: the low 16 bits of local time as it stands (R160). -/
def State.stamp (s : State) : Half := s.st.localTime.setWidth 16

/-- The link is not OFF: the head is a consumer (R71). -/
def State.linkOn (s : State) : Bool := s.link.state != .off

/-- One event is handed to the journal; JLOSS is set if the local lost counter is counted (R87). -/
def State.record (s : State) (e : Event) : State :=
  let (j, loss) := s.jr.handOver s.linkOn s.stamp e
  let s1 := { s with jr := j }
  if loss then s1.raise1 jLossFlag else s1

/-- Events are handed over one at a time, in the order they are made (R69). -/
def State.recordAll (es : List Event) (s : State) : State := es.foldl State.record s

end Sys2Proof.Machine
end

