-- ==== Sys2Proof/Machine/LampEngine.lean ====
section
/-! DEFINITION. The lamp engine (chapter 9), as functions of its own state, with the records it makes. -/

namespace Sys2Proof.Machine

/-! ### Phases (R162) -/

/-- The phase code of LSTATE (R163). -/
def LampPhase.code : LampPhase → Byte
  | .off => 0 | .on => 1 | .blinkLit => 2 | .blinkDark => 3
  | .pulseWait => 4 | .pulseLit => 5 | .followLit => 6 | .followDark => 7

/-- The lamp is lit in this phase. -/
def LampPhase.lit : LampPhase → Bool
  | .on | .blinkLit | .pulseLit | .followLit => true
  | .off | .blinkDark | .pulseWait | .followDark => false

/-- The phase has a timer. -/
def LampPhase.timed : LampPhase → Bool
  | .blinkLit | .blinkDark | .pulseWait | .pulseLit => true
  | .off | .on | .followLit | .followDark => false

/-- The lamp is in PULSE. -/
def LampPhase.pulsing : LampPhase → Bool
  | .pulseWait | .pulseLit => true
  | .off | .on | .blinkLit | .blinkDark | .followLit | .followDark => false

/-- The lamp is in FOLLOW. -/
def LampPhase.following : LampPhase → Bool
  | .followLit | .followDark => true
  | .off | .on | .blinkLit | .blinkDark | .pulseWait | .pulseLit => false

/-! ### Commands (R165, R168, R169) -/

/-- The controller admits a command from this source: local for the host's LGO, remote for the head's LGO and for a command
carried in a delivery (R165). -/
def Controller.admits : Controller → Master → Bool
  | .localOnly, m => m == .host
  | .remoteOnly, m => m == .head
  | .either, _ => true

/-- The lamp's bound key is in the down set (R172); no key has a code of 48 or more. -/
def Lamp.keyDown (l : Lamp) (down : BitVec 48) : Bool := down.getLsbD l.bind.toNat

/-- The FOLLOW phase that the down set gives (R172). -/
def Lamp.followPhase (l : Lamp) (down : BitVec 48) : LampPhase := if l.keyDown down then .followLit else .followDark

/-- An admitted command carried out (R168). -/
def Lamp.run (l : Lamp) (op : LampOp) (level : BitVec 4) (down : BitVec 48) : Lamp :=
  match op with
  | .off => { l with phase := .off, level := 0, remaining := 0, count := 0 }
  | .on => { l with phase := .on, level := level, remaining := 0, count := 0 }
  | .blink => { l with phase := .blinkLit, level := level, remaining := l.lon.toNat * 10, count := l.lcount.toNat }
  | .pulse =>
    if l.ldelay = 0#8 then { l with phase := .pulseLit, level := level, remaining := l.lwidth.toNat * 10, count := 0 }
    else { l with phase := .pulseWait, level := level, remaining := l.ldelay.toNat * 10, count := 0 }
  | .follow => { l with phase := l.followPhase down, level := level, remaining := 0, count := 0 }

/-- The lamp engine with lamp `n` replaced. -/
def Lamps.setLamp (lm : Lamps) (n : Fin 12) (l : Lamp) : Lamps := { lm with lamps := lm.lamps.set n l }

/-- The command is carried out on lamp `n`. -/
def Lamps.run (n : Fin 12) (op : LampOp) (level : BitVec 4) (lm : Lamps) : Lamps :=
  lm.setLamp n (lm.lamps[n].run op level lm.down)

/-- LDENY is counted (R174). -/
def Lamps.deny (lm : Lamps) : Lamps := { lm with ldeny := counted lm.ldeny }

/-- The op is a PULSE and the lamp is in PULSE already (R169). -/
def Lamp.retriggers (l : Lamp) (op : LampOp) : Bool := op == .pulse && l.phase.pulsing

/-- A delivered command for one lamp: carried out, or counted in LDENY (R165, R169, R174). -/
def Lamps.deliverOne (op : LampOp) (level : BitVec 4) (lm : Lamps) (n : Fin 12) : Lamps :=
  let l := lm.lamps[n]
  if l.ctrl.admits .head && !l.retriggers op then lm.run n op level else lm.deny

/-- A well-formed delivered command, for one lamp or for lamps 0 to 11 in that order (R130). -/
def Lamps.deliver (lm : Lamps) (c : LampCommand) : Lamps :=
  match c.target with
  | some n => lm.deliverOne c.op c.level n
  | none => (List.finRange 12).foldl (Lamps.deliverOne c.op c.level) lm

/-- An op code of a delivered command (R129). -/
def lampOpOf : Nat → Option LampOp
  | 0 => some .off
  | 1 => some .on
  | 2 => some .blink
  | 3 => some .pulse
  | 4 => some .follow
  | _ => none

/-- The command that two payload bytes spell, none if it is malformed (R129). -/
def LampCommand.ofBytes (b c : Byte) : Option LampCommand :=
  let target := (b.extractLsb' 0 4).toNat
  match lampOpOf (b.extractLsb' 4 4).toNat with
  | none => none
  | some op =>
    if 15 < c.toNat then none
    else if h : target < 12 then some { op := op, target := some ⟨target, h⟩, level := c.setWidth 4 }
    else if target = 15 then some { op := op, target := none, level := c.setWidth 4 }
    else none

/-- A delivery's payload carried out as lamp commands: two bytes a command, malformed commands and an odd trailing byte counted
in LDENY (R129, R130). -/
def Lamps.payload (lm : Lamps) : List Byte → Lamps
  | [] => lm
  | [_] => lm.deny
  | b :: c :: rest =>
    match LampCommand.ofBytes b c with
    | none => Lamps.payload lm.deny rest
    | some cmd => Lamps.payload (lm.deliver cmd) rest

/-! ### Phase timing (R170, R171, R173) -/

/-- The lamp's phase ends at this tick. -/
def Lamp.ends (l : Lamp) : Bool := l.phase.timed && decide (l.remaining ≤ 1)

/-- What follows the end of the lamp's phase (R171). -/
def Lamp.nextPhase (l : Lamp) : Lamp :=
  match l.phase with
  | .blinkLit =>
    if l.count = 1 then { l with phase := .off, level := 0, remaining := 0, count := 0 }
    else { l with phase := .blinkDark, remaining := l.loff.toNat * 10, count := l.count - 1 }
  | .blinkDark => { l with phase := .blinkLit, remaining := l.lon.toNat * 10 }
  | .pulseWait => { l with phase := .pulseLit, remaining := l.lwidth.toNat * 10 }
  | .pulseLit => { l with phase := .off, level := 0, remaining := 0 }
  | .off | .on | .followLit | .followDark => l

/-- One lamp at a tick (R170). -/
def Lamp.tick (l : Lamp) : Lamp :=
  if l.ends then l.nextPhase
  else if l.phase.timed then { l with remaining := l.remaining - 1 }
  else l

/-- The LAMP_END record of lamp `n` at a tick: detail 0 when a blink count ran out, 1 when a pulse ended (R173). -/
def Lamp.endEvents (l : Lamp) (n : Fin 12) : List Event :=
  if l.ends && l.phase == .blinkLit && l.count == 1 then
    [{ kind := .lampEnd, subject := BitVec.ofNat 8 n.val, detail := 0 }]
  else if l.ends && l.phase == .pulseLit then
    [{ kind := .lampEnd, subject := BitVec.ofNat 8 n.val, detail := 1 }]
  else []

/-- Every lamp's timer at a tick (R170). -/
def Lamps.tick (lm : Lamps) : Lamps := { lm with lamps := tabulate fun n => lm.lamps[n].tick }

/-- The LAMP_END records of a tick, in lamp order (R173). -/
def Lamps.tickEvents (lm : Lamps) : List Event := (List.finRange 12).flatMap fun n => lm.lamps[n].endEvents n

/-! ### Following (R172) -/

/-- A lamp brought into line with the down set if it is in FOLLOW. -/
def Lamp.refollow (l : Lamp) (down : BitVec 48) : Lamp :=
  if l.phase.following then { l with phase := l.followPhase down } else l

/-- The scanner hands over the set of keys in DOWN or LONG. -/
def Lamps.takeDown (down : BitVec 48) (lm : Lamps) : Lamps :=
  { lm with down := down, lamps := tabulate fun n => lm.lamps[n].refollow down }

/-- LSTATE (R163). -/
def Lamp.lstate (l : Lamp) : Byte := l.phase.code ||| bit l.phase.lit 3 ||| fieldAt l.level 4

end Sys2Proof.Machine
end

