-- ==== Sys2Proof/Machine/Flags.lean ====
section
/-! DEFINITION. What is computed from State and holds no state of its own: the level flags, IRQN, the STATUS byte, the attention
digest (chapter 10), and the other output pins. -/

namespace Sys2Proof.Machine

/-! ### Flags (R178, R181) -/

/-- The level flag JRNL: a journal record is presented (R178). -/
def State.jrnl (s : State) : Bool := decide (0 < s.jr.localCount)

/-- The level flag INBOX: an inbound record is presented (R178). -/
def State.inbox (s : State) : Bool := decide (0 < s.ib.queue.length)

/-- IFLAGS1 as it reads: the event flags and the two level flags (R177, R178). -/
def State.iflags1 (s : State) : Byte := (s.ia.flags1 &&& 0x3F#8) ||| bit s.jrnl 7 ||| bit s.inbox 6

/-- IRQN is asserted (R181); it is released while the part is held in reset (R191). -/
def State.irqAsserted (s : State) : Bool :=
  !s.held && ((s.ia.flags0 &&& s.ia.enable0) != 0#8 || (s.iflags1 &&& s.ia.enable1) != 0#8)

/-! ### Codes of states -/

/-- The LINKSTATE code (section 2.9). -/
def LinkState.code : LinkState → Byte
  | .off => 0 | .listen => 1 | .joined => 2 | .hushed => 3 | .clashed => 4

/-- The POWERSTAT code (section 11.1). -/
def PowerState.code : PowerState → Byte
  | .run => 0 | .doze => 1 | .settling => 2 | .sleep => 3 | .waking => 4

/-- The power field of the STATUS byte: 2 stands for SETTLING and for WAKING (R182). -/
def PowerState.statusCode : PowerState → Byte
  | .run => 0 | .doze => 1 | .settling => 2 | .sleep => 3 | .waking => 2

/-- The wake cause code (R189). -/
def WakeCause.code : WakeCause → Byte
  | .key => 0 | .sense => 1 | .link => 2 | .host => 3

/-! ### The STATUS byte (R182) -/

/-- The STATUS byte composed from the state. -/
def State.statusByte (s : State) : Byte :=
  bit s.irqAsserted 7 ||| bit s.jrnl 6 ||| bit s.inbox 5 ||| bit (s.link.state == .joined) 4 |||
    (s.pr.state.statusCode <<< 2) ||| bit (s.ia.flags0.getLsbD 0) 1 ||| bit (s.ia.flags1.getLsbD 4) 0

/-! ### The attention digest (R184) -/

/-- The READY bitmap: bit i while mailbox i is READY (R91). -/
def Outbound.readyMap (ob : Outbound) : Byte :=
  (List.finRange 6).foldl (fun acc i => acc ||| bit (ob.boxes[i].state == .ready) i.val) 0#8

/-- Digest byte D0. -/
def State.digest0 (s : State) : Byte := BitVec.ofNat 8 s.jr.waitingRemote ||| bit (s.jr.remoteLost != 0#8) 7

/-- Digest byte D1. -/
def State.digest1 (s : State) : Byte :=
  BitVec.ofNat 8 (Config.queueRecords - s.ib.queue.length) ||| (s.pr.state.statusCode <<< 4) |||
    bit s.pr.straps.hostless 6 ||| bit s.irqAsserted 7

/-- Digest byte D2. -/
def State.digest2 (s : State) : Byte := s.ob.readyMap ||| bit s.st.timeSet 6 ||| bit (s.own.rlock != 0#6) 7

/-- The three digest bytes in the order they are carried. -/
def State.digest (s : State) : List Byte := [s.digest0, s.digest1, s.digest2]

/-! ### Output pins -/

/-- The byte on SDO for the byte now shifted, none while SDO is released: CSN high, or held in reset (section 1.1, R191). -/
def State.sdo (s : State) : Option Byte := if s.pins.csnLow && !s.held then some s.hp.out else none

/-- LINKDE: asserted while a reply is transmitted (R23, R35), released in reset (R191). -/
def State.linkDe (s : State) : Bool :=
  match s.link.tx with
  | .transmitting _ => !s.held
  | .idle | .pending _ => false

/-- The levels of a byte on the line, bit time by bit time: a start bit at low level, the data bits least significant first, a
stop bit at high level (R23). -/
def byteLevels (b : Byte) : List Bool := [false] ++ (List.range 8).map b.getLsbD ++ [true]

/-- LINKTX in bit time `n` of the present transmission (R23): the reply's bytes back to back. It is high while LINKDE is
released, and so while the part is held in reset (R191). -/
def State.linkTx (s : State) (n : Nat) : Bool :=
  match s.link.tx with
  | .transmitting r => s.held || (r.flatMap byteLevels).getD n true
  | .idle | .pending _ => true

/-- The bit time on the line in microseconds, for 62.5, 125, 250 and 500 kbit/s (R23). -/
def State.bitMicros (s : State) : Nat := 16 / 2 ^ s.link.rate.toNat

/-- The share of the time, in fifteenths, for which LAMPn sinks current (R163): 0 when released. -/
def State.lampDuty (s : State) (n : Fin 12) : Nat :=
  if s.awake && !s.held && s.lm.lamps[n].phase.lit then s.lm.lamps[n].level.toNat else 0

/-- Drive line `d` may be made active by a scan (R132): the line lies in the used area and the scanner is clocked (R134; DEDUCED,
log 22). -/
def State.driveInUse (s : State) (d : Fin 8) : Bool :=
  !s.held && s.ks.en && (s.awake || (s.pr.state == .sleep && s.ks.sleepWake)) && decide (d.val ≤ s.ks.drives.toNat)

end Sys2Proof.Machine
end

