-- ==== Sys2Proof/Machine/InboundService.lean ====
section
/-! DEFINITION. The inbound service (chapter 6): delivery turns, the filter table, the inbound queue and its window. -/

namespace Sys2Proof.Machine

/-- A filter action's code (R117). -/
def Action.code : Action → Byte
  | .queue => 0 | .lamp => 1 | .both => 2 | .discard => 3

/-- The action with this code (R122). -/
def actionOf (c : BitVec 2) : Action :=
  if c = 0#2 then .queue else if c = 1#2 then .lamp else if c = 2#2 then .both else .discard

/-- The action includes QUEUE. -/
def Action.queues : Action → Bool
  | .queue | .both => true
  | .lamp | .discard => false

/-- The action includes LAMP. -/
def Action.lamps : Action → Bool
  | .lamp | .both => true
  | .queue | .discard => false

/-- The entry matches the channel (R117). -/
def Filter.accepts (f : Filter) (chan : Byte) : Bool :=
  f.en && ((chan.setWidth 6 ^^^ f.chan.setWidth 6) &&& f.mask) == 0#6

/-- What the filter table decides for a channel: the action, the filter index 0..8, and the entry that notifies, if any
(R117). -/
structure Verdict where
  action : Action
  filt : Nat
  notify : Option (Fin 8)
deriving DecidableEq, Repr

/-- The filter table evaluated for a channel: the first entry that matches decides, else the default action (R117). -/
def Inbound.judge (ib : Inbound) (chan : Byte) : Verdict :=
  match (List.finRange 8).find? fun i => ib.filters[i].accepts chan with
  | some i =>
    { action := ib.filters[i].action, filt := i.val, notify := if ib.filters[i].notify then some i else none }
  | none => { action := ib.dflt, filt := 8, notify := none }

/-- The queue holds 12 records. -/
def Inbound.full (ib : Inbound) : Bool := decide (Config.queueRecords ≤ ib.queue.length)

/-- A record appended to the queue (R124). -/
def Inbound.store (ib : Inbound) (chan : Byte) (payload : List Byte) (filt : Nat) (broadcast : Bool) (stamp : Half) : Inbound :=
  let r : IqRecord :=
    { tag := ib.nextTag, chan := chan, payload := payload, filt := filt, broadcast := broadcast, stamp := stamp }
  { ib with queue := ib.queue ++ [r], nextTag := ib.nextTag + 1 }

/-- The expected turn (R113). -/
def Inbound.expected (ib : Inbound) : BitVec 3 := ib.lastTurn + 1

/-- An accepted take: the oldest record leaves (R126). -/
def Inbound.take (ib : Inbound) : Inbound := { ib with queue := ib.queue.tail }

/-- The 22 bytes of the inbound window (R125); all 0x00 with no presented record. -/
def Inbound.window (ib : Inbound) : List Byte :=
  match ib.queue with
  | [] => List.replicate 22 0
  | r :: _ =>
    [r.tag, r.chan, BitVec.ofNat 8 r.payload.length,
      BitVec.ofNat 8 r.filt ||| 0x40#8 ||| bit r.broadcast 7, hiByte r.stamp, loByte r.stamp] ++
      (List.range 16).map fun i => byteAt r.payload i

/-! ### Deliveries (R114 to R121) -/

/-- Steps 1 to 3 of R119 and 3 to 5 of R121: the record is stored where `stores` says so, the lamp commands are handed over, and
the deciding entry notifies. -/
def State.applyDelivery (chan : Byte) (payload : List Byte) (v : Verdict) (stores broadcast : Bool) (s : State) : State :=
  let s1 := if stores then { s with ib := s.ib.store chan payload v.filt broadcast s.stamp } else s
  let s2 := if v.action.lamps then { s1 with lm := s1.lm.payload payload } else s1
  match v.notify with
  | some i => ({ s2 with ia.fHit := s2.ia.fHit ||| bit true i.val }).raise1 fHitFlag
  | none => s2

/-- A unicast delivery judged and applied (R114 to R119): the state after it and the receipt's code and detail. -/
def State.deliver (tn : BitVec 3) (chan : Byte) (payload : List Byte) (s : State) : State × Byte × Byte :=
  if tn == s.ib.lastTurn then (s, 0x01#8, 0#8)
  else if tn != s.ib.expected then (s, 0x03#8, 0#8)
  else if 63 < chan.toNat then (s, 0x13#8, chan)
  else
    let v := s.ib.judge chan
    if v.action.queues && s.ib.full then (s, 0x02#8, 0#8)
    else
      let s1 := s.applyDelivery chan payload v v.action.queues false
      ({ s1 with ib.lastTurn := tn }, 0x00#8, 0#8)

/-- A broadcast delivery (R121): no turn test and no reply; a full queue loses only the record. -/
def State.deliverAll (chan : Byte) (payload : List Byte) (s : State) : State :=
  if 63 < chan.toNat then s
  else
    let v := s.ib.judge chan
    if v.action.queues && s.ib.full then
      (({ s with ib.drops := counted s.ib.drops }).raise1 iqDropFlag).applyDelivery chan payload v false true
    else s.applyDelivery chan payload v v.action.queues true

end Sys2Proof.Machine
end

