-- ==== Sys2Proof/Machine/OutboundService.lean ====
section
/-! DEFINITION. The outbound service (chapter 5): mailboxes and their commands, refresh, the stages of a POLL, and
return-to-source. -/

namespace Sys2Proof.Machine

/-! ### Mailboxes (R93, R96, R99) -/

/-- The outbound service with mailbox `i` changed by `f`. -/
def Outbound.updBox (ob : Outbound) (i : Fin 6) (f : Mailbox → Mailbox) : Outbound :=
  { ob with boxes := ob.boxes.set i (f ob.boxes[i]) }

/-- LOAD: the staging becomes the committed content (R96). -/
def Mailbox.load (staging : Mail) (b : Mailbox) : Mailbox := { b with mail := staging }

/-- The ticks of a committed period (R96). -/
def Mail.ticks (m : Mail) : Nat := m.period.toNat * 10

/-- ARM: READY, its refresh started if the period is not 0 (R96). -/
def Mailbox.arm (b : Mailbox) : Mailbox :=
  if b.mail.period = 0#16 then { b with state := .ready, running := false }
  else { b with state := .ready, running := true, remaining := b.mail.ticks }

/-- CANCEL (R96). -/
def Mailbox.cancel (b : Mailbox) : Mailbox :=
  match b.state with
  | .empty => { b with running := false }
  | .ready => { b with state := .empty, running := false }
  | .offered => { b with cancelPending := true, running := false }

/-- The mailbox becomes EMPTY with no cancel pending: acknowledged, withdrawn or dropped (R100, R102, R103). -/
def Mailbox.finish (b : Mailbox) : Mailbox := { b with state := .empty, cancelPending := false }

/-- The mailbox handed back by return-to-source (R107). -/
def Mailbox.giveBack (b : Mailbox) : Mailbox :=
  if b.cancelPending then { b with state := .empty, cancelPending := false } else { b with state := .ready }

/-- The refresh of the mailbox elapses at this tick (R97). -/
def Mailbox.elapses (b : Mailbox) : Bool := b.running && decide (b.remaining ≤ 1)

/-- The elapse finds the mailbox READY or OFFERED: it is stale (R99). -/
def Mailbox.stale (b : Mailbox) : Bool := b.elapses && b.state != .empty

/-- What an elapse does to the mailbox (R99). -/
def Mailbox.elapse (b : Mailbox) : Mailbox :=
  let b1 := if b.state = .empty then { b with state := .ready } else { b with stales := counted b.stales }
  if b.mail.period = 0#16 then { b1 with running := false, remaining := 0 } else { b1 with remaining := b.mail.ticks }

/-- One mailbox's refresh timer at a tick (R97). -/
def Mailbox.tick (b : Mailbox) : Mailbox :=
  if b.elapses then b.elapse
  else if b.running then { b with remaining := b.remaining - 1 }
  else b

/-- Every refresh timer at a tick, mailbox 0 to 5 (R97); MBSTALE is set if any mailbox is stale (R99). -/
def State.tickMailboxes (s : State) : State :=
  let s1 := { s with ob.boxes := tabulate fun i => s.ob.boxes[i].tick }
  if (List.finRange 6).any fun i => s.ob.boxes[i].stale then s1.raise0 mbStaleFlag else s1

/-! ### Return-to-source (R107) -/

/-- The in-flight item is handed back to where it came from. -/
def State.returnToSource (s : State) : State :=
  match s.ob.inFlight with
  | none => s
  | some f =>
    match f.item with
    | .mailbox i => { s with ob := { s.ob.updBox i Mailbox.giveBack with inFlight := none } }
    | .batch => { s with ob.inFlight := none, jr := s.jr.returnBatch }

/-! ### The stages of a POLL (R100 to R106) -/

/-- The in-flight item ends: the next turn moves on past its turn (R92). -/
def State.endItem (s : State) (f : InFlight) : State :=
  { s with ob.inFlight := none, ob.nextTurn := f.turn + 1 }

/-- R100: the in-flight item is acknowledged. -/
def State.acknowledge (s : State) (f : InFlight) : State :=
  match f.item with
  | .mailbox i =>
    (({ s with ob := s.ob.updBox i Mailbox.finish, ia.mbDone := s.ia.mbDone ||| bit true i.val }).raise0 mbDoneFlag).endItem f
  | .batch => ({ s with jr := s.jr.ackBatch }).endItem f

/-- Stage 1: a POLL with AV 1 naming the in-flight item's turn acknowledges it (R100). -/
def State.pollAcknowledge (av : Bool) (tn : BitVec 3) (s : State) : State :=
  match s.ob.inFlight with
  | none => s
  | some f => if av && tn == f.turn then s.acknowledge f else s

/-- The item is a mailbox with cancel pending set (R102). -/
def Outbound.withdrawing (ob : Outbound) (f : InFlight) : Bool :=
  match f.item with
  | .mailbox i => ob.boxes[i].cancelPending
  | .batch => false

/-- R102: a mailbox with cancel pending is withdrawn. -/
def State.withdraw (s : State) (f : InFlight) : State :=
  match f.item with
  | .mailbox i => ({ s with ob := s.ob.updBox i Mailbox.finish }).endItem f
  | .batch => s.endItem f

/-- R103: the item is dropped. -/
def State.dropItem (s : State) (f : InFlight) : State :=
  match f.item with
  | .mailbox i =>
    (({ s with ob := s.ob.updBox i fun b => { b.finish with drops := counted b.drops } }).raise0 mbDropFlag).endItem f
  | .batch => ({ s with jr := s.jr.dropBatch }).endItem f

/-- R101: the item is sent again. -/
def State.resendItem (s : State) (f : InFlight) : State :=
  { s with ob.inFlight := some { f with resends := min 15 (f.resends + 1) } }

/-- Stage 2: an item still in flight is withdrawn, resent or dropped (R101 to R103). -/
def State.pollUnacknowledged (s : State) : State :=
  match s.ob.inFlight with
  | none => s
  | some f =>
    if s.ob.withdrawing f then s.withdraw f
    else if s.ob.resend = 0#8 || decide (f.resends < s.ob.resend.toNat) then s.resendItem f
    else s.dropItem f

/-- The lowest READY mailbox whose index satisfies `p`. -/
def Outbound.firstReady (ob : Outbound) (p : Fin 6 → Bool) : Option (Fin 6) :=
  (List.finRange 6).find? fun i => p i && ob.boxes[i].state == .ready

/-- Stage 3: the item chosen by patience and rank, if any (R104). -/
def State.selectItem (s : State) : Option Item :=
  let eligible := s.jr.eligible
  if s.ob.patience != 0#8 && decide (s.ob.patience.toNat ≤ s.ob.passed) && eligible then some .batch
  else
    match s.ob.firstReady fun i => decide (i.val < s.ob.jrank.toNat) with
    | some i => some (.mailbox i)
    | none =>
      if eligible then some .batch
      else (s.ob.firstReady fun i => decide (s.ob.jrank.toNat ≤ i.val)).map .mailbox

/-- Stages 3 and 4 for the chosen item: the journal passed counter (R105), and composition (R106). -/
def State.composeItem (s : State) (item : Item) : State :=
  let flight : InFlight := { item := item, turn := s.ob.nextTurn, resends := 0 }
  match item with
  | .mailbox i =>
    let passed := if s.jr.eligible then min 15 (s.ob.passed + 1) else s.ob.passed
    { s with ob := { s.ob.updBox i (fun b => { b with state := .offered }) with inFlight := some flight, passed := passed } }
  | .batch => { s with ob.inFlight := some flight, ob.passed := 0, jr := s.jr.composeBatch }

/-- Stages 3 and 4: with no item in flight, one is chosen and composed, if there is a candidate. -/
def State.pollSelect (s : State) : State :=
  match s.ob.inFlight with
  | some _ => s
  | none =>
    match s.selectItem with
    | none => s
    | some item => s.composeItem item

/-- Stages 1 to 4 of a POLL (section 5.5). -/
def State.pollStages (av : Bool) (tn : BitVec 3) (s : State) : State :=
  ((s.pollAcknowledge av tn).pollUnacknowledged).pollSelect

/-- The mailbox item of an ANSWER (Table 2-3). -/
def Mail.item (m : Mail) (i : Fin 6) : List Byte :=
  [0x01#8, BitVec.ofNat 8 i.val, m.chan, m.len] ++ m.data.toList.take m.len.toNat

/-- The item of an ANSWER. -/
def State.itemBytes (s : State) : Item → List Byte
  | .mailbox i => s.ob.boxes[i].mail.item i
  | .batch => s.jr.batchItem

end Sys2Proof.Machine
end

