-- ==== Sys2Proof/Machine/LinkEngine.lean ====
section
/-! DEFINITION. The link engine's counters, the receiver's and transmitter's conditions, and the transitions between link states
(chapter 2). -/

namespace Sys2Proof.Machine

/-! ### Error counters (R29) -/

/-- CRCERR is counted and RXERR set. -/
def State.countCrc (s : State) : State := { s with link.crcErr := counted s.link.crcErr }.raise0 rxErr

/-- FORMERR is counted and RXERR set. -/
def State.countForm (s : State) : State := { s with link.formErr := counted s.link.formErr }.raise0 rxErr

/-- UNKNOWN is counted and RXERR set. -/
def State.countUnknown (s : State) : State := { s with link.unknown := counted s.link.unknown }.raise0 rxErr

/-- COLLIDE is counted and RXERR set. -/
def State.countCollide (s : State) : State := { s with link.collide := counted s.link.collide }.raise0 rxErr

/-! ### Receiver (R24) -/

/-- A byte joins the frame in progress: at most 54 are stored, the arrival of more is remembered. -/
def Receiver.receive (rx : Receiver) (b : RxByte) : Receiver :=
  if rx.bytes.length < Config.frameBytes then
    { rx with bytes := rx.bytes ++ [b.value], fault := rx.fault || b.stopFault }
  else { rx with oversize := true, fault := rx.fault || b.stopFault }

/-- The receiver is receiving, with an empty frame in progress. -/
def Receiver.start : Receiver := { cond := .receiving, idle := 0, bytes := [], oversize := false, fault := false }

/-- The receiver awaits idle after a completed frame, 2 byte times of idle having passed. -/
def Receiver.completed : Receiver := { Receiver.awaiting with idle := 2 }

/-- The transmitter is transmitting a reply. -/
def Transmitter.isTransmitting : Transmitter → Bool
  | .transmitting _ => true
  | .idle | .pending _ => false

/-- The transmitter holds a pending reply. -/
def Transmitter.isPending : Transmitter → Bool
  | .pending _ => true
  | .idle | .transmitting _ => false

/-- The receiver listens to the line: the link is not OFF (R23) and the part is not transmitting (R24). -/
def State.listening (s : State) : Bool := s.linkOn && !s.link.tx.isTransmitting

/-! ### Abandoning a reply (R36, R37) -/

/-- The reply is abandoned: the transmitter is idle, COLLIDE is counted and RXERR set. -/
def State.abandonReply (s : State) : State := { s with link.tx := .idle }.countCollide

/-- What a start bit on the line does to a pending reply: it cancels it (R37). -/
def State.cancelPending (s : State) : State := if s.link.tx.isPending then s.abandonReply else s

/-! ### Turn reset (R40) -/

/-- The next answer turn becomes 0 and the last accepted delivery turn 7. -/
def State.turnReset (s : State) : State := { s with ob.nextTurn := 0, ib.lastTurn := 7 }

/-! ### Transitions (R41 to R48) -/

/-- The watchdog and the quiet-period timer stop. -/
def State.stopTimers (s : State) : State := { s with link.watchdog := 0, link.quiet := .stopped }

/-- Enabling the link: OFF to LISTEN (R41). -/
def State.enableLink (s : State) : State :=
  ({ s.turnReset.stopTimers with link.state := .listen, link.rx := Receiver.awaiting }).raise0 linkChg

/-- Disabling the link (R41, in its order; the journal's remote consumer is cleared as R88 states). R41 discards a frame being
received; that the receiver then awaits idle, with an idle measure of 0, while OFF is the model's (DESIGN CHOICE, log 24). -/
def State.disableLink (s : State) : State :=
  let s1 := { s with link.tx := .idle, link.rx := Receiver.awaiting }.returnToSource
  let s2 := { s1 with jr := s1.jr.clearRemote, own.rlock := 0 }
  ({ s2.turnReset.stopTimers with link.state := .off }).raise0 linkChg

/-- What both joins do after the address is settled (R43 steps 2 to 7, R44 steps 3 to 8). -/
def State.enterJoined (s : State) : State :=
  let s1 := { s with link.state := .joined, link.quiet := .stopped }.turnReset
  { s1 with link.session := s1.link.session + 1, st.timeSet := false, link.watchdog := 0 }.raise0 linkChg

/-- A join by plain roll call, up to its HELLO (R43): from JOINED or HUSHED the in-flight item is returned first. -/
def State.join (s : State) : State :=
  if s.link.state == .joined || s.link.state == .hushed then s.returnToSource.enterJoined else s.enterJoined

/-- A join by a matching roll call by serial with new address 1..30, up to its HELLO (R44). -/
def State.joinAt (addr : BitVec 5) (s : State) : State := { s.returnToSource with link.addr := addr }.enterJoined

/-- A matching roll call by serial with new address 0 (R44). -/
def State.unassign (s : State) : State :=
  ({ s.returnToSource.stopTimers with link.addr := 0, link.state := .listen, own.rlock := 0 }).raise0 linkChg

/-- The quiet period of a HUSH's duration field, in units of 10 ms; 0 is unlimited (R45). -/
def quietOf (d : Half) : Quiet := if d = 0#16 then .untilRollcall else .left (d.toNat * 10)

/-- A HUSH acted on in JOINED or HUSHED (R45). -/
def State.hush (d : Half) (s : State) : State :=
  match s.link.state with
  | .joined => ({ s.returnToSource with link.state := .hushed, link.quiet := quietOf d }).raise0 linkChg
  | .hushed => { s with link.quiet := quietOf d }
  | .off | .listen | .clashed => s

/-- A clash (R46). -/
def State.clash (s : State) : State :=
  (({ s.returnToSource.stopTimers with link.state := .clashed, own.rlock := 0 }).countCollide).raise0 (clashFlag ||| linkChg)

/-- The silence watchdog expires (R48). -/
def State.loseHead (s : State) : State :=
  ({ s.returnToSource.stopTimers with link.state := .listen, own.rlock := 0 }).raise0 (lostHead ||| linkChg)

/-- A BEACON acted on in RUN, DOZE or SETTLING: with SETTIME it loads local time (R49, R158). -/
def State.beacon (flags : Byte) (time : BitVec 32) (s : State) : State :=
  if flags.getLsbD 0 then { s with st.localTime := time, st.timeSet := true }.raise1 timeSetFlag else s

/-! ### The watchdog and the quiet-period timer at a tick (R45, R48) -/

/-- The watchdog runs: JOINED or HUSHED, in RUN, DOZE or SETTLING. -/
def State.watchdogRuns (s : State) : Bool := (s.link.state == .joined || s.link.state == .hushed) && s.awake

/-- The watchdog expires at this tick. -/
def State.watchdogExpires (s : State) : Bool :=
  s.watchdogRuns && s.link.silence != 0#8 && decide (s.link.silence.toNat * 20 ≤ s.link.watchdog + 1)

/-- The watchdog at a tick: held at 0 while SILENCE is 0. -/
def State.tickWatchdog (s : State) : State :=
  if s.watchdogExpires then s.loseHead
  else if s.watchdogRuns then
    { s with link.watchdog := if s.link.silence = 0#8 then 0 else s.link.watchdog + 1 }
  else s

/-- The quiet-period timer runs out at this tick, where the watchdog has not expired first. -/
def State.quietExpires (s : State) : Bool :=
  s.link.state == .hushed && s.awake &&
    match s.link.quiet with
    | .left ms => decide (ms ≤ 1)
    | .stopped | .untilRollcall => false

/-- The quiet-period timer at a tick. The return to JOINED is an entry into JOINED, which restarts the watchdog (R48). -/
def State.tickQuiet (s : State) : State :=
  if s.quietExpires then { s with link.state := .joined, link.quiet := .stopped, link.watchdog := 0 }.raise0 linkChg
  else
    match s.link.quiet with
    | .left ms => if s.link.state == .hushed && s.awake then { s with link.quiet := .left (ms - 1) } else s
    | .stopped | .untilRollcall => s

end Sys2Proof.Machine
end

