-- ==== Sys2Proof/Machine/Frame.lean ====
section
/-! DEFINITION. Frames of the Spoke link (sections 2.2, 2.3 and 2.5): layout, CHECK, kinds, classification of a completed
frame. -/

namespace Sys2Proof.Machine

/-! ### Kinds (Table 2-3) -/

/-- The twelve assigned kinds. -/
inductive FrameKind where
  | rollcall | poll | deliver | peek | poke | hush | beacon
  | hello | answer | nothing | receipt | regval
deriving DecidableEq, Repr

/-- The kind code. -/
def FrameKind.code : FrameKind → BitVec 4
  | .rollcall => 0x1 | .poll => 0x2 | .deliver => 0x3 | .peek => 0x4 | .poke => 0x5 | .hush => 0x6 | .beacon => 0x7
  | .hello => 0x9 | .answer => 0xA | .nothing => 0xB | .receipt => 0xC | .regval => 0xD

/-- The kind that a code is assigned to, none for 0x0, 0x8, 0xE and 0xF. -/
def kindOf (c : BitVec 4) : Option FrameKind :=
  if c = 0x1#4 then some .rollcall
  else if c = 0x2#4 then some .poll
  else if c = 0x3#4 then some .deliver
  else if c = 0x4#4 then some .peek
  else if c = 0x5#4 then some .poke
  else if c = 0x6#4 then some .hush
  else if c = 0x7#4 then some .beacon
  else if c = 0x9#4 then some .hello
  else if c = 0xA#4 then some .answer
  else if c = 0xB#4 then some .nothing
  else if c = 0xC#4 then some .receipt
  else if c = 0xD#4 then some .regval
  else none

/-- A head kind, codes 0x1 to 0x7. -/
def FrameKind.fromHead : FrameKind → Bool
  | .rollcall | .poll | .deliver | .peek | .poke | .hush | .beacon => true
  | .hello | .answer | .nothing | .receipt | .regval => false

/-! ### Layout and CHECK (Table 2-1, R25, R26) -/

/-- The fields of a frame. -/
structure Frame where
  dest : BitVec 5
  src : BitVec 5
  kind : FrameKind
  av : Bool
  tn : BitVec 3
  body : List Byte
deriving DecidableEq, Repr

/-- One bit of the CHECK's division: generator x^16 + x^12 + x^5 + 1 (R26). -/
def crcShift (c : Half) : Half := if c.getLsbD 15 then (c <<< 1) ^^^ 0x1021#16 else c <<< 1

/-- One byte of the CHECK, most significant bit first. -/
def crcByte (c : Half) (b : Byte) : Half :=
  let x := c ^^^ (b ++ 0#8)
  crcShift (crcShift (crcShift (crcShift (crcShift (crcShift (crcShift (crcShift x)))))))

/-- CHECK over these bytes: initial value 0xFFFF, no final inversion (R26). -/
def crc (bs : List Byte) : Half := bs.foldl crcByte 0xFFFF#16

/-- Bytes 0 to 3 of a frame whose kind has this code (Table 2-1). -/
def frameHeader (dest src : BitVec 5) (kind : BitVec 4) (av : Bool) (tn : BitVec 3) (len : Nat) : List Byte :=
  [dest.setWidth 8, src.setWidth 8, fieldAt kind 4 ||| bit av 3 ||| fieldAt tn 0, BitVec.ofNat 8 len]

/-- Bytes followed by their CHECK, high byte first. -/
def withCheck (bs : List Byte) : List Byte := bs ++ [hiByte (crc bs), loByte (crc bs)]

/-- All bytes of a frame on the wire, in order. -/
def Frame.bytes (f : Frame) : List Byte :=
  withCheck (frameHeader f.dest f.src f.kind.code f.av f.tn f.body.length ++ f.body)

/-! ### Classification (R27, R28) -/

/-- The outcomes of R27. -/
inductive FrameClass where
  | badFormat | badCrc | unknownKind
  | misdirected
  | valid (f : Frame)
deriving DecidableEq, Repr

/-- The direction rule (R28). -/
def Frame.directionOk (f : Frame) : Bool :=
  if f.kind.fromHead then f.src == 0#5 else decide (1 ≤ f.src.toNat ∧ f.src.toNat ≤ 30) && f.dest == 0#5

/-- The body rule (R28); satellite kinds are not subject to it. -/
def Frame.bodyOk (f : Frame) : Bool :=
  let n := f.body.length
  match f.kind with
  | .rollcall => n == 0 || (n == 7 && f.dest == 31#5 && decide ((byteAt f.body 6).toNat ≤ 30))
  | .poll => n == 0
  | .deliver => decide (1 ≤ n ∧ n ≤ 17)
  | .peek => n == 2
  | .poke => decide (2 ≤ n ∧ n ≤ 17)
  | .hush => n == 2
  | .beacon => n == 5 && f.dest == 31#5
  | .hello | .answer | .nothing | .receipt | .regval => true

/-- The kind is one that is never broadcast: a plain ROLLCALL, POLL, PEEK or POKE (R28). -/
def Frame.neverBroadcast (f : Frame) : Bool :=
  match f.kind with
  | .rollcall => f.body.length == 0
  | .poll | .peek | .poke => true
  | .deliver | .hush | .beacon | .hello | .answer | .nothing | .receipt | .regval => false

/-- The addressing rule (R28), for a part whose own address is `own`. -/
def Frame.addressed (own : BitVec 5) (f : Frame) : Bool :=
  if f.kind.fromHead then
    f.dest != 0#5 && (f.dest == 31#5 || f.dest == own) && !(f.dest == 31#5 && f.neverBroadcast)
  else true

/-- Tests 6 to 10 of R27, for a frame whose bytes passed tests 1 to 5. -/
def classifyHeader (own : BitVec 5) (d s k : Byte) (body : List Byte) : FrameClass :=
  if d.extractLsb' 5 3 != 0#3 || s.extractLsb' 5 3 != 0#3 then .badFormat
  else
    match kindOf (k.extractLsb' 4 4) with
    | none => .unknownKind
    | some kind =>
      let f : Frame :=
        { dest := d.setWidth 5, src := s.setWidth 5, kind := kind, av := k.getLsbD 3, tn := k.setWidth 3, body := body }
      if !f.directionOk then .badFormat
      else if !f.bodyOk then .badFormat
      else if !f.addressed own then .misdirected
      else .valid f

/-- The ten tests of R27 on a completed frame: the first that fails decides. -/
def classify (own : BitVec 5) (rx : Receiver) : FrameClass :=
  if rx.fault then .badFormat
  else
    match rx.bytes with
    | d :: s :: k :: l :: rest =>
      if rx.bytes.length < 6 then .badFormat
      else if 48 < l.toNat then .badFormat
      else if rx.oversize || rx.bytes.length != 6 + l.toNat then .badFormat
      else
        let body := rest.take l.toNat
        let sum := crc (d :: s :: k :: l :: body)
        if rest.drop l.toNat != [hiByte sum, loByte sum] then .badCrc
        else classifyHeader own d s k body
    | _ => .badFormat

/-! ### Replies (R30, R34) -/

/-- A reply is composed at the end of its step: KIND and TN, the body before the digest and after it. The transmitter becomes
reply pending. -/
def State.reply (kind : FrameKind) (tn : BitVec 3) (front back : List Byte) (s : State) : State :=
  let f : Frame :=
    { dest := 0, src := s.link.addr, kind := kind, av := false, tn := tn, body := front ++ s.digest ++ back }
  { s with link.tx := .pending f.bytes }

/-- A RECEIPT with this code and detail; its TN is the next expected delivery turn (R31). -/
def State.replyReceipt (code detail : Byte) (s : State) : State := s.reply .receipt s.ib.expected [code, detail] []

/-- A HELLO (R30). -/
def State.replyHello (s : State) : State :=
  s.reply .hello 0
    (serialBytes s.serial ++ [Config.ident, Config.revision, s.link.session, Config.mailboxCount, Config.lampCount]) []

/-- The reply to a POLL: an ANSWER carrying the in-flight item, or NOTHING (R106). -/
def State.replyPoll (s : State) : State :=
  match s.ob.inFlight with
  | some f => s.reply .answer f.turn [] (s.itemBytes f.item)
  | none => s.reply .nothing 0 [] []

/-! ### The frames of the table's rows, as bytes seen on the line -/

/-- A byte as the receiver samples it, with the level in the middle of each of its ten bit times: bit time 0 is the start bit, 1 to
8 are the data bits, least significant first, and a stop bit sampled low is a stop fault (R23). -/
def sampleByte (level : Nat → Bool) : RxByte :=
  { value := (List.range 8).foldl (fun acc n => acc ||| bit (level (n + 1)) n) 0#8, stopFault := !level 9 }

/-- Bytes seen on the line without a stop fault. -/
def onLine (bs : List Byte) : List RxByte := bs.map fun b => { value := b, stopFault := false }

/-- A head's frame to `dest`, as seen on the line. -/
def headFrame (dest : BitVec 5) (kind : FrameKind) (av : Bool) (tn : BitVec 3) (body : List Byte) : List RxByte :=
  onLine (Frame.bytes { dest := dest, src := 0, kind := kind, av := av, tn := tn, body := body })

end Sys2Proof.Machine
end

