-- ==== Sys2Proof/Machine/Scanner.lean ====
section
/-! DEFINITION. The key matrix scanner (chapter 7), as functions of its own state: the scanner does not depend on what becomes
of its records (R137), so each function answers the scanner after it and the records it made, in order. -/

namespace Sys2Proof.Machine

/-! ### Geometry (R132) -/

/-- The drive line of a key code. -/
def driveOf (k : Fin 48) : Nat := k.val / 6

/-- The sense line of a key code. -/
def senseOf (k : Fin 48) : Nat := k.val % 6

/-- The key lies in the used area. -/
def Scanner.used (ks : Scanner) (k : Fin 48) : Bool :=
  decide (driveOf k ≤ ks.drives.toNat) && decide (senseOf k ≤ ks.senses.toNat)

/-- The key code at a drive and a sense line. -/
def keyAt (d : Fin 8) (s : Fin 6) : Fin 48 := ⟨d.val * 6 + s.val, by omega⟩

/-! ### Key states (R135, R136) -/

/-- The debounced level is pressed. -/
def KeyState.pressed : KeyState → Bool
  | .up => false
  | .down | .long | .blocked | .suspect => true

/-- The key is counted: DOWN or LONG. -/
def KeyState.isCounted : KeyState → Bool
  | .down | .long => true
  | .up | .blocked | .suspect => false

/-- The key can be a corner of a ghost rectangle: DOWN, LONG or BLOCKED (R139). -/
def KeyState.corner : KeyState → Bool
  | .down | .long | .blocked => true
  | .up | .suspect => false

/-- The state of key `k`. -/
def Scanner.keyState (ks : Scanner) (k : Fin 48) : KeyState := ks.keys[k].state

/-- How many keys are counted: KEYSDOWN (R136, R148). -/
def Scanner.countedKeys (ks : Scanner) : Nat := (List.finRange 48).countP fun k => (ks.keyState k).isCounted

/-- How many keys are SUSPECT: GHOSTS (R136, R148). -/
def Scanner.suspectKeys (ks : Scanner) : Nat := (List.finRange 48).countP fun k => ks.keyState k == .suspect

/-- The set of keys in DOWN or LONG: KEYMAP, and what is handed to the lamp engine (R144, R148). -/
def Scanner.downSet (ks : Scanner) : BitVec 48 :=
  (List.finRange 48).foldl
    (fun acc k => if (ks.keyState k).isCounted then acc ||| (1#48 <<< k.val) else acc) 0#48

/-- The scanner with key `k` replaced. -/
def Scanner.setKey (ks : Scanner) (k : Fin 48) (key : Key) : Scanner := { ks with keys := ks.keys.set k key }

/-! ### Debounce (R135) -/

/-- The raw reading of key `k` differs from its debounced level for the DEBOUNCE-th scan in a row: the key flips. -/
def Scanner.flips (ks : Scanner) (raw : BitVec 48) (k : Fin 48) : Bool :=
  ks.used k && raw.getLsbD k.val != (ks.keyState k).pressed && decide (ks.debounce.toNat ≤ ks.keys[k].deb + 1)

/-- The debounce counter of key `k` after this scan's reading. -/
def Scanner.nextDeb (ks : Scanner) (raw : BitVec 48) (k : Fin 48) : Nat :=
  if !ks.used k then ks.keys[k].deb
  else if raw.getLsbD k.val == (ks.keyState k).pressed then 0
  else if ks.flips raw k then 0
  else ks.keys[k].deb + 1

/-- Every key's debounce counter is updated, all keys together. -/
def Scanner.debounceAll (ks : Scanner) (raw : BitVec 48) : Scanner :=
  { ks with keys := tabulate fun k => { ks.keys[k] with deb := ks.nextDeb raw k } }

/-! ### Ghost rectangles (R139) -/

/-- Key `k` completes a rectangle: some A on its drive line, B on its sense line and C at their other corner are all DOWN, LONG
or BLOCKED. -/
def Scanner.completesRectangle (ks : Scanner) (k : Fin 48) : Bool :=
  (List.finRange 8).any fun d => (List.finRange 6).any fun s =>
    decide (d.val ≠ driveOf k) && decide (s.val ≠ senseOf k) &&
      (ks.keyState (keyAt ⟨driveOf k, by simp only [driveOf]; omega⟩ s)).corner &&
      (ks.keyState (keyAt d ⟨senseOf k, by simp only [senseOf]; omega⟩)).corner &&
      (ks.keyState (keyAt d s)).corner

/-! ### The stages of one scan (R137) -/

/-- A scanner on its way through a stage, with the records made so far, in order. -/
abbrev Stage := Scanner × List Event

/-- The record of a key. -/
def keyEvent (kind : JKind) (k : Fin 48) (detail : Byte) : Event :=
  { kind := kind, subject := BitVec.ofNat 8 k.val, detail := detail }

/-- A key in `state` whose times are 0, its debounce counter kept. -/
def Key.fresh (key : Key) (state : KeyState) : Key := { key with state := state, hold := 0, rept := 0, ordinal := 0 }

/-- What a release of a key in this state reports (R138). -/
def releaseEvents (k : Fin 48) : KeyState → List Event
  | .down => [keyEvent .keyUp k 0]
  | .long => [keyEvent .keyUp k 1]
  | .up | .blocked | .suspect => []

/-- Stage 1 for key `k`: a debounced release returns it to UP (R138). -/
def releaseKey (flipped : Fin 48 → Bool) (acc : Stage) (k : Fin 48) : Stage :=
  let key := acc.1.keys[k]
  if flipped k && key.state.pressed then
    (acc.1.setKey k (key.fresh .up), acc.2 ++ releaseEvents k key.state)
  else acc

/-- A key that is free of rectangles is admitted if fewer than four keys are counted, and is BLOCKED otherwise. -/
def admitKey (acc : Stage) (k : Fin 48) : Stage :=
  let key := acc.1.keys[k]
  if acc.1.countedKeys < Config.rollover then
    (acc.1.setKey k (key.fresh .down), acc.2 ++ [keyEvent .keyDown k 0])
  else (acc.1.setKey k (key.fresh .blocked), acc.2)

/-- Stage 2 for key `k`: a SUSPECT or BLOCKED key is re-evaluated (R140). -/
def reviewKey (acc : Stage) (k : Fin 48) : Stage :=
  match acc.1.keyState k with
  | .suspect | .blocked => if acc.1.completesRectangle k then acc else admitKey acc k
  | .up | .down | .long => acc

/-- Stage 3 for key `k`: a debounced press becomes SUSPECT, BLOCKED or DOWN (R141). -/
def pressKey (flipped : Fin 48 → Bool) (acc : Stage) (k : Fin 48) : Stage :=
  let key := acc.1.keys[k]
  if flipped k && key.state == .up then
    if acc.1.completesRectangle k then
      (acc.1.setKey k (key.fresh .suspect), acc.2 ++ [keyEvent .ghost k 0])
    else admitKey acc k
  else acc

/-- A DOWN key held this long becomes LONG (R142). -/
def Scanner.reachesLong (ks : Scanner) (hold : Nat) : Bool :=
  ks.longTime != 0#8 && decide (ks.longTime.toNat * 20 ≤ hold)

/-- A LONG key with this repeat time repeats (R143). -/
def Scanner.reachesRepeat (ks : Scanner) (t : Nat) : Bool := ks.rept != 0#8 && decide (ks.rept.toNat * 20 ≤ t)

/-- Stage 4 for key `k`, in a scan of length `len`: hold and repeat timing of a key that was DOWN or LONG before the scan
(R142, R143). -/
def timeKey (wasCounted : Fin 48 → Bool) (len : Nat) (acc : Stage) (k : Fin 48) : Stage :=
  let key := acc.1.keys[k]
  let hold := satTime key.hold len
  match key.state with
  | .down =>
    if !wasCounted k then acc
    else if acc.1.reachesLong hold then
      (acc.1.setKey k { key with state := .long, hold := hold, rept := 0, ordinal := 0 },
        acc.2 ++ [keyEvent .keyLong k 0])
    else (acc.1.setKey k { key with hold := hold }, acc.2)
  | .long =>
    if !wasCounted k then acc
    else
      let t := satTime key.rept len
      if acc.1.reachesRepeat t then
        let ordinal := counted key.ordinal
        (acc.1.setKey k { key with hold := hold, rept := t % (acc.1.rept.toNat * 20), ordinal := ordinal },
          acc.2 ++ [keyEvent .keyRepeat k ordinal])
      else (acc.1.setKey k { key with hold := hold, rept := t }, acc.2)
  | .up | .blocked | .suspect => acc

/-- A stage: the keys are taken one at a time in ascending key code (R137). -/
def overKeys (f : Stage → Fin 48 → Stage) (acc : Stage) : Stage := (List.finRange 48).foldl f acc

/-- Stages 1 to 4 of a scan of length `len` with these raw readings, the debounce update made first (R135, R137). -/
def Scanner.scan (ks : Scanner) (raw : BitVec 48) (len : Nat) : Stage :=
  let flipped := ks.flips raw
  let wasCounted := fun k => (ks.keyState k).isCounted
  let s0 : Stage := (ks.debounceAll raw, [])
  let s1 := overKeys (releaseKey flipped) s0
  let s2 := overKeys reviewKey s1
  let s3 := overKeys (pressKey fun k => flipped k && !(ks.keyState k).pressed) s2
  overKeys (timeKey wasCounted len) s3

/-! ### Forced release (R145) -/

/-- The scanner after a forced release: every key UP, the scan clock at 0 (R145). A scan that fell due at the tick whose step enters
SLEEP is dropped, with SLEEPWAKE 1 too: DESIGN CHOICE (log 7). -/
def Scanner.allUp (ks : Scanner) : Scanner := { ks with keys := Vector.replicate 48 Key.up, clock := 0, due := false }

/-- The records of a forced release: KEY_UP with detail 2 for every key in DOWN or LONG, in ascending key code. -/
def Scanner.forcedEvents (ks : Scanner) : List Event :=
  (List.finRange 48).filterMap fun k => if (ks.keyState k).isCounted then some (keyEvent .keyUp k 2) else none

/-! ### The scan clock (R134) -/

/-- The scan interval in force, in milliseconds. -/
def Scanner.interval (ks : Scanner) : PowerState → Nat
  | .run | .settling | .waking => ks.period.toNat
  | .doze | .sleep => ks.period.toNat * 4

/-- The scanner is clocked. -/
def Scanner.clocked (ks : Scanner) (p : PowerState) : Bool := ks.en && (p.awake || (p == .sleep && ks.sleepWake))

/-- The scan clock at a tick: counted while clocked (a scan completion falling due when the interval is reached), else held at
0. The count never needs to pass 64. -/
def Scanner.tick (p : PowerState) (ks : Scanner) : Scanner :=
  if ks.clocked p then
    let c := min 64 (ks.clock + 1)
    { ks with clock := c, due := ks.due || decide (ks.interval p ≤ c) }
  else { ks with clock := 0, due := false }

/-- The lowest key of the used area that reads pressed (R146). -/
def Scanner.lowestPressed (ks : Scanner) (raw : BitVec 48) : Option (Fin 48) :=
  (List.finRange 48).find? fun k => ks.used k && raw.getLsbD k.val

end Sys2Proof.Machine
end

