-- ==== Sys2Proof/Machine/PowerModes.lean ====
section
/-! DEFINITION. Power modes (chapter 11): the power request, sleep entry, wake requests and the end of waking. -/

namespace Sys2Proof.Machine

/-! ### Hand-over and forced release (R144, R145, R172) -/

/-- The scanner hands its set of counted keys to the lamp engine. -/
def State.handOverKeys (s : State) : State := { s with lm := s.lm.takeDown s.ks.downSet }

/-- A forced release (R145). -/
def State.forcedRelease (s : State) : State :=
  ({ s.recordAll s.ks.forcedEvents with ks := s.ks.allUp }).handOverKeys

/-! ### The power request (R186) -/

/-- An accepted write of POWER. -/
def State.requestPower (v : Byte) (s : State) : State :=
  let next : PowerState :=
    match s.pr.state with
    | .sleep => .sleep
    | .waking => .waking
    | .run | .doze | .settling => if v = 0#8 then .run else if v = 1#8 then .doze else .settling
  { s with pr.power := v, pr.state := next }

/-! ### Entering sleep (R187) -/

/-- Nothing stands against sleep: no frame is being received, the transmitter is idle and CSN is high. -/
def State.quiescent (s : State) : Bool :=
  s.link.rx.cond != .receiving && s.link.tx == .idle && !s.pins.csnLow

/-- Entry into SLEEP: the forced release of an enabled scanner; timers and lamps are frozen by the power state alone. -/
def State.enterSleep (s : State) : State :=
  let s1 := { s with pr.state := .sleep }
  if s1.ks.en then s1.forcedRelease else s1

/-- The sleep-entry test. -/
def State.sleepDue (s : State) : Bool := s.pr.state == .settling && s.quiescent

/-- The end of every event step: the sleep-entry test (R187). It is made in the step that ends the RECEIPT of a remote restart as
in any other, so that the restart can find the part in SLEEP (log 21). -/
def State.endOfStep (s : State) : State := if s.sleepDue then s.enterSleep else s

/-! ### Waking (R189, R190) -/

/-- A wake request: in SLEEP it moves the part to WAKING and holds the scan clock at 0; elsewhere it has no effect. -/
def State.requestWake (c : WakeCause) (detail : Byte) (s : State) : State :=
  if s.pr.state = .sleep then
    { s with pr.state := .waking, pr.request := some (c, detail), pr.wakeTicks := 0, ks.clock := 0, ks.due := false }
  else s

/-- The oscillator-ready event is due: the second tick after entry into WAKING has passed (R190). -/
def State.oscillatorDue (s : State) : Bool := s.pr.state == .waking && decide (2 ≤ s.pr.wakeTicks)

/-- The end of waking (R190). -/
def State.finishWake (s : State) : State :=
  let (c, d) := s.pr.request.getD (.key, 0#8)
  let s1 :=
    { s with
      pr := { s.pr with state := .run, power := 0, cause := c, woken := true, request := none, wakeTicks := 0 }
      link.watchdog := 0
      ks.clock := 0
      ks.due := false }
  (s1.record { kind := .woke, subject := c.code, detail := d }).raise1 wokeFlag

end Sys2Proof.Machine
end

