-- ==== Sys2Proof/Machine/SenseInputs.lean ====
section
/-! DEFINITION. The sense inputs (chapter 8), as functions of their own state, with the records they make. -/

namespace Sys2Proof.Machine

/-- The input has its debounced level, counter and primed indication as after enabling or disabling (R151). -/
def SenseInput.unprimed (i : SenseInput) : SenseInput := { i with primed := false, level := false, counter := 0 }

/-- The sample with raw level `raw` is the one that makes the input flip (R152). -/
def SenseInput.flips (i : SenseInput) (raw : Bool) : Bool :=
  i.en && i.primed && raw != i.level && decide (i.debounce.toNat ≤ i.counter + 1)

/-- One sample of an enabled input (R152). -/
def SenseInput.sample (i : SenseInput) (raw : Bool) : SenseInput :=
  if !i.en then i
  else if !i.primed then { i with primed := true, level := raw, counter := 0 }
  else if raw == i.level then { i with counter := 0 }
  else if i.flips raw then { i with level := raw, counter := 0 }
  else { i with counter := i.counter + 1 }

/-- EDGE selects this flip: to 1 under RISE or BOTH, to 0 under FALL or BOTH (R153). -/
def Edge.selects (e : Edge) (rises : Bool) : Bool :=
  match e with
  | .rise => rises
  | .fall => !rises
  | .both => true

/-- The record of the sample, if it makes the input flip and EDGE selects the flip (R153). -/
def SenseInput.sampleEvents (i : SenseInput) (n : Fin 4) (raw : Bool) : List Event :=
  if i.flips raw && i.edge.selects raw then
    [{ kind := if raw then .senseRise else .senseFall, subject := BitVec.ofNat 8 n.val, detail := 0 }]
  else []

/-- Every enabled input is sampled (R152); `sns` holds the raw levels of SNS3..SNS0. -/
def Sense.sampleAll (st : Sense) (sns : BitVec 4) : Sense :=
  { st with inputs := tabulate fun n => st.inputs[n].sample (sns.getLsbD n.val) }

/-- The records of one round of samples, in input order (R153). -/
def Sense.sampleEvents (st : Sense) (sns : BitVec 4) : List Event :=
  (List.finRange 4).flatMap fun n => st.inputs[n].sampleEvents n (sns.getLsbD n.val)

/-- The input asks for a wake: enabled, WAKE set, primed, and its raw level differs from the frozen level (R154). -/
def SenseInput.asksWake (i : SenseInput) (raw : Bool) : Bool := i.en && i.wake && i.primed && raw != i.level

/-- The lowest input that asks for a wake (R154). -/
def Sense.wakeInput (st : Sense) (sns : BitVec 4) : Option (Fin 4) :=
  (List.finRange 4).find? fun n => st.inputs[n].asksWake (sns.getLsbD n.val)

/-- SENSELEVEL: bit n is the debounced level of input n, 0 while disabled or not primed (R155). -/
def Sense.levels (st : Sense) : Byte :=
  bit st.inputs[0].level 0 ||| bit st.inputs[1].level 1 ||| bit st.inputs[2].level 2 ||| bit st.inputs[3].level 3

end Sys2Proof.Machine
end

