-- ==== Sys2Proof/Machine/Clock.lean ====
section
/-! DEFINITION. The 1 ms tick (R2, R156) and the completion of a key-matrix scan (R134, R137, R146). -/

namespace Sys2Proof.Machine

/-! ### The tick, position by position -/

/-- First position: local time (R156), and the model's own count of ticks in WAKING (log 8). -/
def State.tickTime (s : State) : State :=
  { s with
    st.localTime := s.st.localTime + 1
    pr.wakeTicks := if s.pr.state = .waking then s.pr.wakeTicks + 1 else s.pr.wakeTicks }

/-- Third position: the refresh timers, frozen in SLEEP and WAKING (R97). -/
def State.tickRefresh (s : State) : State := if s.awake then s.tickMailboxes else s

/-- Fourth position: the lamp timers, frozen in SLEEP and WAKING, and their LAMP_END records (R170, R173). -/
def State.tickLamps (s : State) : State :=
  if s.awake then { s with lm := s.lm.tick }.recordAll s.lm.tickEvents else s

/-- The scan clock (R134), which the tick's order does not bear on. -/
def State.tickScan (s : State) : State := { s with ks := s.ks.tick s.pr.state }

/-- Fifth position: the sense inputs are sampled, or in SLEEP read for a wake (R152 to R154). -/
def State.tickSense (sns : BitVec 4) (s : State) : State :=
  match s.pr.state with
  | .run | .doze | .settling => { s with st := s.st.sampleAll sns }.recordAll (s.st.sampleEvents sns)
  | .sleep =>
    match s.st.wakeInput sns with
    | some n => s.requestWake .sense (BitVec.ofNat 8 n.val)
    | none => s
  | .waking => s

/-- The ms tick, with the raw levels of SNS3..SNS0 (R2). -/
def State.tick (sns : BitVec 4) (s : State) : State :=
  s.tickTime.tickWatchdog.tickQuiet.tickRefresh.tickLamps.tickScan.tickSense sns

/-! ### A scan completion -/

/-- A scan completion in RUN, DOZE or SETTLING (R135, R137, R144): its length is the scan clock's count, which returns to 0. -/
def State.processScan (keys : BitVec 48) (s : State) : State :=
  let (ks, es) := s.ks.scan keys s.ks.clock
  { s.recordAll es with ks := { ks with clock := 0, due := false }, pins.switches := keys }.handOverKeys

/-- A wake scan (R146). -/
def State.wakeScan (keys : BitVec 48) (s : State) : State :=
  let s1 := { s with ks.clock := 0, ks.due := false, pins.switches := keys }
  match s.ks.lowestPressed keys with
  | some k => s1.requestWake .key (BitVec.ofNat 8 k.val)
  | none => s1

/-- The step of a scan completion in each power state; in WAKING none completes. -/
def State.completeScan (keys : BitVec 48) (s : State) : State :=
  match s.pr.state with
  | .run | .doze | .settling => s.processScan keys
  | .sleep => s.wakeScan keys
  | .waking => s

/-- A scan completion is due that is processed through the stages of R137. -/
def State.scanDue (s : State) : Bool := s.ks.due && s.awake

end Sys2Proof.Machine
end

