-- ==== Sys2Proof/Machine/Resets.lean ====
section
/-! DEFINITION. The resets (sections 11.5 and 11.6): the power-on state of Table 11-1 and the soft restart. -/

namespace Sys2Proof.Machine

/-- The step of a power-on or pin reset: the straps are sampled and the part takes the power-on state of Table 11-1 (R191,
R193). CSN's level, the serial number and the queue of commands are not the part's to reset. -/
def State.powerOnReset (p : Straps) (s : State) : State :=
  { s with
    hp := HostPort.afterReset s.pins.csnLow
    host := Copies.powerOn
    head := Copies.powerOn
    rc := RefusalCapture.afterReset
    link := Link.powerOn p
    own := Ownership.powerOn p
    jr := Journal.powerOn p
    ob := Outbound.powerOn
    ib := Inbound.powerOn p
    ks := Scanner.powerOn
    st := Sense.powerOn
    lm := Lamps.powerOn
    ia := Attention.powerOn
    pr := Power.powerOn p }

/-- The reset step is taken once RESETN is high and the supply is in range; until then the part stays held (R191). -/
def State.resetUnlessHeld (p : Straps) (s : State) : State := if s.held then s else s.powerOnReset p

/-- A master's copies after a soft restart: staging kept, selectors, LGOLEVEL and snapshots zeroed (R11, R67). -/
def Copies.restart (c : Copies) : Copies :=
  { c with fsel := 0, mbsel := 0, lsel := 0, lgoLevel := 0, snap := Snapshots.zero }

/-- The link engine after a soft restart (R42, R193). -/
def Link.restart (l : Link) : Link :=
  { l with state := if l.en then .listen else .off
           watchdog := 0, quiet := .stopped, rx := Receiver.awaiting, tx := .idle
           crcErr := 0, formErr := 0, collide := 0, unknown := 0 }

/-- The journal after a soft restart: as after power-on, JROUTE, JPOLICY and JBATCH kept (R90). -/
def Journal.restart (j : Journal) : Journal :=
  { j with list := [], nextSeq := 0, localLost := 0, remoteLost := 0, presentedLoss := 0, batch := none }

/-- A mailbox after a soft restart: its committed content kept (R111), the time left of its stopped refresh 0 (log 20). -/
def Mailbox.restart (b : Mailbox) : Mailbox := { Mailbox.powerOn with mail := b.mail }

/-- The outbound service after a soft restart (R111). -/
def Outbound.restart (ob : Outbound) : Outbound :=
  { ob with nextTurn := 0, inFlight := none, passed := 0, boxes := tabulate fun i => ob.boxes[i].restart }

/-- The inbound service after a soft restart: the filter table and IQDEFAULT kept (R131). -/
def Inbound.restart (ib : Inbound) : Inbound := { ib with lastTurn := 7, queue := [], nextTag := 0, drops := 0 }

/-- The key scanner after a soft restart: its configuration kept, every key UP without records (R149). -/
def Scanner.restart (ks : Scanner) : Scanner := { ks with keys := Vector.replicate 48 Key.up, clock := 0, due := false }

/-- Sense inputs and local time after a soft restart: configuration and local time kept (R155, R156, R159). -/
def Sense.restart (st : Sense) : Sense :=
  { st with inputs := tabulate fun n => st.inputs[n].unprimed, timeSet := false }

/-- A lamp after a soft restart: its configuration kept, OFF with level 0 (R176). -/
def Lamp.restart (l : Lamp) : Lamp := { l with phase := .off, level := 0, remaining := 0, count := 0 }

/-- The lamp engine after a soft restart (R176). -/
def Lamps.restart (lm : Lamps) : Lamps := { lamps := tabulate fun n => lm.lamps[n].restart, ldeny := 0, down := 0 }

/-- Interrupt and attention after a soft restart: the enables kept, RESTARTED alone set (R185). -/
def Attention.restart (a : Attention) : Attention := { a with flags0 := 0, flags1 := restartedFlag, mbDone := 0, fHit := 0 }

/-- Power and reset after a soft restart: the straps kept (R193). -/
def Power.restart (p : Power) : Power := Power.powerOn p.straps

/-- The step of a soft restart (R192): any reply is cut off, a frame being received is discarded, an open SPI transaction goes to
IGNORE, and every block takes the soft-restart state of Table 11-1. Return-to-source (step 4) leaves nothing that step 5 does not
replace. -/
def State.softRestart (s : State) : State :=
  { s with
    hp := HostPort.afterReset s.pins.csnLow
    host := s.host.restart
    head := s.head.restart
    rc := RefusalCapture.afterReset
    link := s.link.restart
    own := { s.own with rlock := 0, restartPending := false }
    jr := s.jr.restart
    ob := s.ob.restart
    ib := s.ib.restart
    ks := s.ks.restart
    st := s.st.restart
    lm := s.lm.restart
    ia := s.ia.restart
    pr := s.pr.restart }

end Sys2Proof.Machine
end

