-- ==== Sys2Proof/Machine/EventSteps.lean ====
section
/-! DEFINITION. The frame that every event step stands in (R1, R2, R191): the steps that are due before it, its own event, and
the end of the step. -/

namespace Sys2Proof.Machine

/-! ### The steps that come first (R2) -/

/-- A pending restart has fallen due: the reply that carried its RECEIPT has ended, or there was none (R64). -/
def State.restartWaits (s : State) : Bool := s.own.restartPending && s.link.tx == .idle

/-- A scan completion has fallen due (R134); in WAKING none completes (R190). -/
def State.scanWaits (s : State) : Bool := s.ks.due && s.pr.state != .waking

/-- A remote restart follows directly on the step that ended its RECEIPT (R2, R64). -/
def State.takeRestart (s : State) : State := if s.restartWaits then s.softRestart else s

/-- The oscillator-ready event follows on the second tick in WAKING (R2, R190). -/
def State.takeOscillator (s : State) : State := if s.oscillatorDue then s.finishWake else s

/-- A scan completion follows on the tick at which it fell due (R2, R134). Its readings are those of its own command; where
another command comes in its place the switches are taken as the last scan found them (log 18). -/
def State.takeScan (s : State) : State := if s.scanWaits then (s.completeScan s.pins.switches).endOfStep else s

/-- Every step that R2 takes before the next event of another kind, in its order. -/
def State.settle (s : State) : State := s.takeRestart.takeOscillator.takeScan

/-! ### Event steps -/

/-- An event step (R1): where the part is not held in reset (R191), the steps of `earlier` come first; then, where the event can
fall due (`due`), its consequences `f` and the end of the step (R187). Where it cannot, it has no effect of its own (log 12). -/
def eventAfter (earlier : State → State) (due : State → Bool) (f : State → State) (s : State) : State :=
  if s.held then s
  else if due (earlier s) then (f (earlier s)).endOfStep
  else earlier s

/-- An event step after every step that R2 takes before it. -/
def onEvent (due : State → Bool) (f : State → State) (s : State) : State := eventAfter State.settle due f s

/-- A moment on a pin that is no event step (R4, R24, R35): it has no sleep-entry test at its end. -/
def onMoment (due : State → Bool) (f : State → State) (s : State) : State :=
  if s.held then s else if due s.settle then f s.settle else s.settle

/-- The event step of a tick in which `due` comes about (log 13). -/
def tickEvent (due : State → Bool) (sns : BitVec 4) (s : State) : State := onEvent due (State.tick sns) s

/-- The event step of a scan completion in which `due` comes about (log 13): a restart and the end of waking come before it. -/
def scanEvent (due : State → Bool) (keys : BitVec 48) (s : State) : State :=
  eventAfter (fun s => s.takeRestart.takeOscillator) due (State.completeScan keys) s

end Sys2Proof.Machine
end

