-- ==== Sys2Proof/Machine/Operands.lean ====
section
/-! DEFINITION. The register address map (Table 1-1, R12): which register a byte address names, and the access type, write class
and window each register has. -/

namespace Sys2Proof.Machine

/-- The registers of Table 1-1, byte by byte, and `unassigned` for every address it does not list. -/
inductive Reg where
  | ident | revision | straps | power | powerStat | restart | owner | rlock | refAddr | refCause | refCount
  | localTime (i : Fin 4)
  | iflags0 | iflags1 | ienable0 | ienable1 | mbDoneMap | fHitMap
  | serial (i : Fin 6)
  | linkCtl | linkAddr | silence | resend | linkState | session | crcErr | formErr | collide | unknown
  | jrank | patience | jbatch | jroute | jpolicy | jlocalCount | jremoteCount | jtotal
  | jwindow (i : Fin 7)
  | jtake | iqCount | iqDefault | iqDrops
  | iqwindow (i : Fin 22)
  | iqtake | fsel | fctl | fchan | fmask | mbsel | mbState | mbCmd | mbDrops | mbStales | mbChan | mbLen
  | mbPeriod (i : Fin 2)
  | mbData (i : Fin 16)
  | scanCtl | matrix | scanPeriod | debounce | longTime | rept | keysDown | ghosts
  | keymap (i : Fin 6)
  | senseCtl (n : Fin 4)
  | senseLevel | lsel | lcfg | lbind | lon | loff | lcount | ldelay | lwidth | lstate | lgoLevel | lgo | ldeny
  | unassigned
deriving DecidableEq, Repr

/-- One run of Table 1-1: the first address, how many addresses, and the register at each offset. -/
structure MapRow where
  first : Nat
  count : Nat
  reg : Nat → Reg

/-- A row of a single address. -/
def row1 (a : Nat) (r : Reg) : MapRow := { first := a, count := 1, reg := fun _ => r }

/-- Table 1-1. -/
def registerMap : List MapRow :=
  [ row1 0x00 .ident, row1 0x01 .revision, row1 0x02 .straps, row1 0x03 .power, row1 0x04 .powerStat, row1 0x05 .restart,
    row1 0x06 .owner, row1 0x07 .rlock, row1 0x08 .refAddr, row1 0x09 .refCause, row1 0x0A .refCount,
    ⟨0x0C, 4, fun i => .localTime (Fin.ofNat 4 i)⟩,
    row1 0x10 .iflags0, row1 0x11 .iflags1, row1 0x12 .ienable0, row1 0x13 .ienable1,
    row1 0x14 .mbDoneMap, row1 0x15 .fHitMap,
    ⟨0x18, 6, fun i => .serial (Fin.ofNat 6 i)⟩,
    row1 0x20 .linkCtl, row1 0x21 .linkAddr, row1 0x22 .silence, row1 0x23 .resend, row1 0x24 .linkState,
    row1 0x25 .session, row1 0x26 .crcErr, row1 0x27 .formErr, row1 0x28 .collide, row1 0x29 .unknown,
    row1 0x2B .jrank, row1 0x2C .patience, row1 0x2D .jbatch, row1 0x30 .jroute, row1 0x31 .jpolicy,
    row1 0x32 .jlocalCount, row1 0x33 .jremoteCount, row1 0x34 .jtotal,
    ⟨0x38, 7, fun i => .jwindow (Fin.ofNat 7 i)⟩,
    row1 0x3F .jtake, row1 0x40 .iqCount, row1 0x41 .iqDefault, row1 0x42 .iqDrops,
    ⟨0x44, 22, fun i => .iqwindow (Fin.ofNat 22 i)⟩,
    row1 0x5A .iqtake, row1 0x60 .fsel, row1 0x61 .fctl, row1 0x62 .fchan, row1 0x63 .fmask,
    row1 0x68 .mbsel, row1 0x69 .mbState, row1 0x6A .mbCmd, row1 0x6B .mbDrops, row1 0x6C .mbStales,
    row1 0x6D .mbChan, row1 0x6E .mbLen,
    ⟨0x6F, 2, fun i => .mbPeriod (Fin.ofNat 2 i)⟩,
    ⟨0x71, 16, fun i => .mbData (Fin.ofNat 16 i)⟩,
    row1 0x90 .scanCtl, row1 0x91 .matrix, row1 0x92 .scanPeriod, row1 0x93 .debounce, row1 0x94 .longTime,
    row1 0x95 .rept, row1 0x96 .keysDown, row1 0x97 .ghosts,
    ⟨0x98, 6, fun i => .keymap (Fin.ofNat 6 i)⟩,
    ⟨0xA0, 4, fun i => .senseCtl (Fin.ofNat 4 i)⟩,
    row1 0xA4 .senseLevel, row1 0xB0 .lsel, row1 0xB1 .lcfg, row1 0xB2 .lbind, row1 0xB3 .lon, row1 0xB4 .loff,
    row1 0xB5 .lcount, row1 0xB6 .ldelay, row1 0xB7 .lwidth, row1 0xB8 .lstate, row1 0xB9 .lgoLevel,
    row1 0xBA .lgo, row1 0xBB .ldeny ]

/-- The register at a byte address (R9, R12). -/
def regAt (a : Byte) : Reg :=
  match registerMap.find? fun r => decide (r.first ≤ a.toNat) && decide (a.toNat < r.first + r.count) with
  | some r => r.reg (a.toNat - r.first)
  | none => .unassigned

/-- The write classes of Table 1-1. -/
inductive WriteClass where
  | readOnly
  | group (g : Group)
  | localOnly
  | perMaster
  | ownership
  | lampController
deriving DecidableEq, Repr

/-- The write class of a register. Only the LOCALTIME byte at 0x0F is a SYS write; the three below it go into the writer's
staging and meet only causes 1 and 2 (R16, R51). -/
def Reg.writeClass : Reg → WriteClass
  | .ident | .revision | .straps | .powerStat | .refAddr | .refCause | .refCount | .serial _ | .linkState | .session
  | .jlocalCount | .jremoteCount | .jtotal | .jwindow _ | .iqCount | .iqwindow _ | .mbState | .keysDown | .ghosts
  | .keymap _ | .senseLevel | .lstate | .unassigned => .readOnly
  | .power | .restart => .group .sys
  | .localTime i => if i = 3 then .group .sys else .perMaster
  | .owner | .rlock => .ownership
  | .iflags0 | .iflags1 | .ienable0 | .ienable1 | .mbDoneMap | .fHitMap | .jtake | .iqtake => .localOnly
  | .linkCtl | .linkAddr | .silence | .resend | .crcErr | .formErr | .collide | .unknown => .group .link
  | .jrank | .patience | .jbatch | .jroute | .jpolicy | .mbCmd | .mbDrops | .mbStales | .mbChan | .mbLen | .mbPeriod _
  | .mbData _ => .group .outbox
  | .iqDefault | .iqDrops | .fctl | .fchan | .fmask => .group .inbox
  | .scanCtl | .matrix | .scanPeriod | .debounce | .longTime | .rept | .senseCtl _ => .group .input
  | .lcfg | .lbind | .lon | .loff | .lcount | .ldelay | .lwidth | .ldeny => .group .lamp
  | .fsel | .mbsel | .lsel | .lgoLevel => .perMaster
  | .lgo => .lampController

/-- The bit of a group in OWNER and RLOCK (R51). -/
def Group.index : Group → Nat
  | .sys => 0 | .link => 1 | .input => 2 | .lamp => 3 | .outbox => 4 | .inbox => 5

/-- The refusal codes (Table 2-4, R19). -/
def Cause.code : Cause → Byte
  | .readOnly => 0x14 | .localOnly => 0x15 | .notOwner => 0x11 | .busy => 0x12 | .range => 0x13 | .mismatch => 0x16

/-- The capture address and the length of a snapshotted field (R14). -/
def SnapField.span : SnapField → Nat × Nat
  | .localTime => (0x0C, 4)
  | .journal => (0x38, 7)
  | .inbound => (0x44, 22)
  | .mbPeriod => (0x6F, 2)
  | .keymap => (0x98, 6)

/-- The five snapshotted fields. -/
def snapFields : List SnapField := [.localTime, .journal, .inbound, .mbPeriod, .keymap]

/-- The field whose capture address this is (R14). -/
def captureAt (a : Byte) : Option SnapField := snapFields.find? fun f => f.span.1 == a.toNat

/-- The address of an event flag register. -/
def flagAddr : FlagReg → Byte
  | .iflags0 => 0x10
  | .iflags1 => 0x11

/-- The address of a completion bitmap. -/
def bitmapAddr : BitmapReg → Byte
  | .mbDoneMap => 0x14
  | .fHitMap => 0x15

/-- The address of a CL counter. -/
def counterAddr : CounterReg → Byte
  | .crcErr => 0x26 | .formErr => 0x27 | .collide => 0x28 | .unknown => 0x29
  | .iqDrops => 0x42 | .mbDrops => 0x6B | .mbStales => 0x6C | .lDeny => 0xBB

end Sys2Proof.Machine
end

