-- ==== Sys2Proof/Machine/Registers.lean ====
section
/-! DEFINITION. Registers as either master reads and writes them: what a read returns, the access check (R19, R20), and the
effect of an accepted write. -/

namespace Sys2Proof.Machine

/-! ### Field codes -/

/-- The EDGE field's code (R150). -/
def Edge.code : Edge → Byte
  | .rise => 0 | .fall => 1 | .both => 2

/-- The edge with this code; code 3 is refused before it is written. -/
def edgeOf (c : BitVec 2) : Edge := if c = 0#2 then .rise else if c = 1#2 then .fall else .both

/-- LCFG's code (R162). -/
def Controller.code : Controller → Byte
  | .localOnly => 0 | .remoteOnly => 1 | .either => 2

/-- The controller with this code; codes above 2 are refused before they are written. -/
def controllerOf (v : Byte) : Controller := if v = 0#8 then .localOnly else if v = 1#8 then .remoteOnly else .either

/-- MBSTATE (R93). -/
def Mailbox.mbState (b : Mailbox) : Byte :=
  (match b.state with | .empty => 0#8 | .ready => 1#8 | .offered => 2#8) ||| bit b.running 2 ||| bit b.cancelPending 3

/-- FCTL (R122). -/
def Filter.fctl (f : Filter) : Byte := bit f.en 0 ||| (f.action.code <<< 1) ||| bit f.notify 3

/-- SENSECTLn (R150). -/
def SenseInput.senseCtl (i : SenseInput) : Byte :=
  bit i.en 0 ||| (i.edge.code <<< 1) ||| bit i.wake 3 ||| fieldAt i.debounce 4

/-- STRAPS (section 11.10). -/
def strapsByte (p : Straps) : Byte := fieldAt p.addr 0 ||| bit p.hostless 5 ||| fieldAt p.rate 6

/-- POWERSTAT (section 11.10). -/
def Power.powerStat (p : Power) : Byte := p.state.code ||| (p.cause.code <<< 4) ||| bit p.woken 6

/-! ### Selected windows (R13, R18) -/

/-- The filter entry that master `m` selects. -/
def State.selFilter (s : State) (m : Master) : Filter := s.ib.filters[(s.copies m).fsel]

/-- The mailbox that master `m` selects. -/
def State.selBox (s : State) (m : Master) : Mailbox := s.ob.boxes[(s.copies m).mbsel]

/-- The lamp that master `m` selects. -/
def State.selLamp (s : State) (m : Master) : Lamp := s.lm.lamps[(s.copies m).lsel]

/-- The state with the selected filter entry changed by `f`. -/
def State.updFilter (m : Master) (f : Filter → Filter) (s : State) : State :=
  { s with ib.filters := s.ib.filters.set (s.copies m).fsel (f (s.selFilter m)) }

/-- The state with the selected mailbox changed by `f`. -/
def State.updBox (m : Master) (f : Mailbox → Mailbox) (s : State) : State :=
  { s with ob := s.ob.updBox (s.copies m).mbsel f }

/-- The state with the selected lamp changed by `f`. -/
def State.updLamp (m : Master) (f : Lamp → Lamp) (s : State) : State :=
  { s with lm := s.lm.setLamp (s.copies m).lsel (f (s.selLamp m)) }

/-! ### Reading (R13 to R15) -/

/-- The current content of a snapshotted field, as a capture by master `m` copies it (R15). -/
def State.content (s : State) (m : Master) : SnapField → List Byte
  | .localTime => bytes32 s.st.localTime
  | .journal => s.jr.window
  | .inbound => s.ib.window
  | .mbPeriod => [hiByte (s.selBox m).mail.period, loByte (s.selBox m).mail.period]
  | .keymap => keymapBytes s.ks.downSet

/-- A master's snapshots with one field replaced by a capture. -/
def Snapshots.install (sn : Snapshots) (f : SnapField) (bs : List Byte) : Snapshots :=
  match f with
  | .localTime => { sn with time := bs }
  | .journal => { sn with journal := bs }
  | .inbound => { sn with inbound := bs }
  | .mbPeriod => { sn with period := bs }
  | .keymap => { sn with keymap := bs }

/-- A capture becomes master `m`'s snapshot of the field (R15). -/
def State.install (m : Master) (f : SnapField) (bs : List Byte) (s : State) : State :=
  s.updCopies m fun c => { c with snap := c.snap.install f bs }

/-- What a read of a register by master `m` returns (R13); the bytes of a snapshotted field come from `m`'s snapshot (R14). -/
def State.readReg (s : State) (m : Master) : Reg → Byte
  | .ident => Config.ident
  | .revision => Config.revision
  | .straps => strapsByte s.pr.straps
  | .power => s.pr.power
  | .powerStat => s.pr.powerStat
  | .restart => 0
  | .owner => fieldAt s.own.owner 0
  | .rlock => fieldAt s.own.rlock 0
  | .refAddr => s.rc.addr
  | .refCause => s.rc.cause
  | .refCount => s.rc.count
  | .localTime i => byteAt (s.copies m).snap.time i
  | .iflags0 => s.ia.flags0
  | .iflags1 => s.iflags1
  | .ienable0 => s.ia.enable0
  | .ienable1 => s.ia.enable1
  | .mbDoneMap => s.ia.mbDone
  | .fHitMap => s.ia.fHit
  | .serial i => byteAt (serialBytes s.serial) i
  | .linkCtl => bit s.link.en 0 ||| fieldAt s.link.rate 1
  | .linkAddr => fieldAt s.link.addr 0
  | .silence => s.link.silence
  | .resend => s.ob.resend
  | .linkState => s.link.state.code
  | .session => s.link.session
  | .crcErr => s.link.crcErr
  | .formErr => s.link.formErr
  | .collide => s.link.collide
  | .unknown => s.link.unknown
  | .jrank => s.ob.jrank
  | .patience => s.ob.patience
  | .jbatch => s.jr.batchSize
  | .jroute => fieldAt s.jr.route 0
  | .jpolicy => s.jr.policy
  | .jlocalCount => BitVec.ofNat 8 s.jr.localCount
  | .jremoteCount => BitVec.ofNat 8 s.jr.remoteCount
  | .jtotal => BitVec.ofNat 8 s.jr.list.length
  | .jwindow i => byteAt (s.copies m).snap.journal i
  | .jtake => 0
  | .iqCount => BitVec.ofNat 8 s.ib.queue.length
  | .iqDefault => s.ib.dflt.code
  | .iqDrops => s.ib.drops
  | .iqwindow i => byteAt (s.copies m).snap.inbound i
  | .iqtake => 0
  | .fsel => BitVec.ofNat 8 (s.copies m).fsel.val
  | .fctl => (s.selFilter m).fctl
  | .fchan => (s.selFilter m).chan
  | .fmask => fieldAt (s.selFilter m).mask 0
  | .mbsel => BitVec.ofNat 8 (s.copies m).mbsel.val
  | .mbState => (s.selBox m).mbState
  | .mbCmd => 0
  | .mbDrops => (s.selBox m).drops
  | .mbStales => (s.selBox m).stales
  | .mbChan => (s.selBox m).mail.chan
  | .mbLen => (s.selBox m).mail.len
  | .mbPeriod i => byteAt (s.copies m).snap.period i
  | .mbData i => (s.selBox m).mail.data[i]
  | .scanCtl => bit s.ks.en 0 ||| bit s.ks.sleepWake 1
  | .matrix => fieldAt s.ks.drives 4 ||| fieldAt s.ks.senses 0
  | .scanPeriod => s.ks.period
  | .debounce => s.ks.debounce
  | .longTime => s.ks.longTime
  | .rept => s.ks.rept
  | .keysDown => BitVec.ofNat 8 s.ks.countedKeys
  | .ghosts => BitVec.ofNat 8 s.ks.suspectKeys
  | .keymap i => byteAt (s.copies m).snap.keymap i
  | .senseCtl n => s.st.inputs[n].senseCtl
  | .senseLevel => s.st.levels
  | .lsel => BitVec.ofNat 8 (s.copies m).lsel.val
  | .lcfg => (s.selLamp m).ctrl.code
  | .lbind => (s.selLamp m).bind
  | .lon => (s.selLamp m).lon
  | .loff => (s.selLamp m).loff
  | .lcount => (s.selLamp m).lcount
  | .ldelay => (s.selLamp m).ldelay
  | .lwidth => (s.selLamp m).lwidth
  | .lstate => (s.selLamp m).lstate
  | .lgoLevel => fieldAt (s.copies m).lgoLevel 0
  | .lgo => 0
  | .ldeny => s.lm.ldeny
  | .unassigned => 0

/-! ### The access check (R19, R20) -/

/-- The group's OWNER bit names the other master (R51). -/
def State.ownedByOther (s : State) (m : Master) (g : Group) : Bool :=
  match m with
  | .host => s.own.owner.getLsbD g.index
  | .head => !s.own.owner.getLsbD g.index

/-- A local write of OWNER reclaims a locked group (R53). -/
def State.reclaimsLocked (s : State) (v : Byte) : Bool := (s.own.owner &&& ~~~(v.setWidth 6) &&& s.own.rlock) != 0#6

/-- A remote write of OWNER seizes a group in the hosted arrangement (R54). -/
def State.seizesHosted (s : State) (v : Byte) : Bool :=
  !s.pr.straps.hostless && (~~~s.own.owner &&& v.setWidth 6) != 0#6

/-- A remote write of RLOCK locks a group that the head does not own (R56). -/
def State.locksUnowned (s : State) (v : Byte) : Bool := (~~~s.own.rlock &&& v.setWidth 6 &&& ~~~s.own.owner) != 0#6

/-- Cause 3, NOT_OWNER. -/
def State.notOwner (s : State) (m : Master) (r : Reg) (v : Byte) : Bool :=
  match r.writeClass with
  | .group g => s.ownedByOther m g
  | .ownership =>
    match m with
    | .host => r == .owner && s.reclaimsLocked v
    | .head => if r = .owner then s.seizesHosted v else s.locksUnowned v
  | .lampController => !(s.selLamp m).ctrl.admits m
  | .readOnly | .localOnly | .perMaster => false

/-- Cause 4, BUSY: a quiescent-only field would change while its engine is enabled (R20), a mailbox command that the mailbox's
state forbids (R96), or a PULSE on a pulsing lamp (R169). -/
def State.busy (s : State) (m : Master) (r : Reg) (v : Byte) : Bool :=
  match r with
  | .linkCtl => s.linkOn && v.extractLsb' 1 2 != s.link.rate
  | .linkAddr => s.linkOn && v.setWidth 5 != s.link.addr
  | .matrix => s.ks.en && (v.extractLsb' 4 3 != s.ks.drives || v.extractLsb' 0 3 != s.ks.senses)
  | .senseCtl n =>
    let i := s.st.inputs[n]
    i.en && (v.extractLsb' 1 2 != i.edge.code.setWidth 2 || v.extractLsb' 4 4 != i.debounce)
  | .mbCmd => (v == 1#8 || v == 2#8) && (s.selBox m).state != .empty
  | .lgo => v == 3#8 && (s.selLamp m).phase.pulsing
  | _ => false

/-- Cause 5, RANGE: a field of the value lies outside its range, a CL counter is written with a value other than 0x00, or a
command register with a value that names no command. -/
def outOfRange (r : Reg) (v : Byte) : Bool :=
  let n := v.toNat
  match r with
  | .power => decide (2 < n)
  | .restart => decide (n ≠ 1)
  | .linkAddr => v.setWidth 5 == 31#5
  | .resend | .patience => decide (15 < n)
  | .jrank => decide (6 < n)
  | .jbatch => decide (n = 0 ∨ 6 < n)
  | .jpolicy => decide (1 < n)
  | .iqDefault => decide (n ≠ 0 ∧ n ≠ 3)
  | .crcErr | .formErr | .collide | .unknown | .iqDrops | .mbDrops | .mbStales | .ldeny => decide (n ≠ 0)
  | .fsel => decide (7 < n)
  | .mbsel => decide (5 < n)
  | .lsel => decide (11 < n)
  | .lgoLevel => decide (15 < n)
  | .fchan | .mbChan => decide (63 < n)
  | .mbLen => decide (16 < n)
  | .mbCmd => decide (n = 0 ∨ 3 < n)
  | .matrix => decide (5 < (v.extractLsb' 0 3).toNat)
  | .scanPeriod => decide (n = 0 ∨ 16 < n)
  | .debounce => decide (n = 0 ∨ 8 < n)
  | .senseCtl _ => v.extractLsb' 1 2 == 3#2 || v.extractLsb' 4 4 == 0#4
  | .lcfg => decide (2 < n)
  | .lon | .loff | .lwidth => decide (n = 0)
  | .lgo => decide (4 < n)
  | _ => false

/-- Cause 6, MISMATCH: the take does not name the live presented record, or none is presented (R77, R127). -/
def State.mismatch (s : State) (r : Reg) (v : Byte) : Bool :=
  match r with
  | .jtake => (s.jr.presented.map (·.seq)) != some v
  | .iqtake => (s.ib.queue.head?.map (·.tag)) != some v
  | _ => false

/-- The access check of R19: the first cause that applies to a write by master `m` of `v` to register `r`, none if it is
accepted. -/
def State.check (s : State) (m : Master) (r : Reg) (v : Byte) : Option Cause :=
  if r.writeClass = .readOnly || (r = .rlock && m = .host) then some .readOnly
  else if r.writeClass = .localOnly && m = .head then some .localOnly
  else if s.notOwner m r v then some .notOwner
  else if s.busy m r v then some .busy
  else if outOfRange r v then some .range
  else if s.mismatch r v then some .mismatch
  else none

/-! ### The effect of an accepted write (R13) -/

/-- A byte of a pair of period bytes replaced: 0 the high byte, 1 the low byte (R17). -/
def setPeriodByte (h : Half) (i : Fin 2) (v : Byte) : Half := if i = 0 then halfOf v (loByte h) else halfOf (hiByte h) v

/-- A mailbox staging byte written (R17, R94). -/
def State.stageMail (m : Master) (f : Mail → Mail) (s : State) : State := s.updCopies m fun c => { c with mail := f c.mail }

/-- An accepted write of OWNER: the RLOCK bit of a group that goes to the local host is cleared (R53 to R55). -/
def State.writeOwner (v : Byte) (s : State) : State :=
  { s with own.owner := v.setWidth 6, own.rlock := s.own.rlock &&& v.setWidth 6 }

/-- An accepted write of RLOCK: bits for groups of the local host are stored as 0 (R55, R56). -/
def State.writeRlock (v : Byte) (s : State) : State := { s with own.rlock := v.setWidth 6 &&& s.own.owner }

/-- An accepted write of LINKCTL: RATE is stored, and a change of EN enables or disables the link (R41, R42). -/
def State.writeLinkCtl (v : Byte) (s : State) : State :=
  let s1 := { s with link.rate := v.extractLsb' 1 2, link.en := v.getLsbD 0 }
  if v.getLsbD 0 && !s.link.en then s1.enableLink
  else if !v.getLsbD 0 && s.link.en then s1.disableLink
  else s1

/-- An accepted write of SCANCTL: a change of EN starts the scanner, or stops it with a forced release (R133, R145). -/
def State.writeScanCtl (v : Byte) (s : State) : State :=
  let s1 := { s with ks.en := v.getLsbD 0, ks.sleepWake := v.getLsbD 1 }
  if v.getLsbD 0 && !s.ks.en then { s1 with ks := s1.ks.allUp }
  else if !v.getLsbD 0 && s.ks.en then s1.forcedRelease
  else s1

/-- SENSECTLn with a written byte (R150, R151): a change of EN leaves the input not primed with level and counter 0. -/
def SenseInput.configure (i : SenseInput) (v : Byte) : SenseInput :=
  let j := { i with en := v.getLsbD 0, edge := edgeOf (v.extractLsb' 1 2), wake := v.getLsbD 3, debounce := v.extractLsb' 4 4 }
  if v.getLsbD 0 = i.en then j else j.unprimed

/-- An accepted write of LBIND: a lamp in FOLLOW is re-evaluated at once (R164, R172). -/
def Lamp.rebind (l : Lamp) (v : Byte) (down : BitVec 48) : Lamp := Lamp.refollow { l with bind := v } down

/-- The op of an LGO value (R167). -/
def lgoOp (v : Byte) : LampOp :=
  if v = 0#8 then .off else if v = 1#8 then .on else if v = 2#8 then .blink else if v = 3#8 then .pulse else .follow

/-- An accepted LGO: the op at the writer's LGOLEVEL on the lamp that the writer selects (R167, R168). -/
def State.writeLgo (m : Master) (v : Byte) (s : State) : State :=
  { s with lm := s.lm.run (s.copies m).lsel (lgoOp v) (s.copies m).lgoLevel }

/-- An accepted MBCMD on the mailbox that the writer selects (R95, R96). -/
def State.writeMbCmd (m : Master) (v : Byte) (s : State) : State :=
  if v = 1#8 then s.updBox m (Mailbox.load (s.copies m).mail)
  else if v = 2#8 then s.updBox m Mailbox.arm
  else s.updBox m Mailbox.cancel

/-- A local W1C write of IFLAGS0; clearing REFUSED also zeroes REFCOUNT (R22, R179). -/
def State.clearFlags0 (v : Byte) (s : State) : State :=
  let s1 := { s with ia.flags0 := s.ia.flags0 &&& ~~~v }
  if v.getLsbD 0 then { s1 with rc.count := 0 } else s1

/-- A LOCALTIME byte goes into the writer's staging; the byte at 0x0F also commits the whole staged value (R16, R157). -/
def State.writeLocalTime (m : Master) (i : Fin 4) (v : Byte) (s : State) : State :=
  let s1 := s.updCopies m fun c => { c with time := c.time.set i v }
  if i = 3 then
    let t := (s1.copies m).time
    { s1 with st.localTime := wordOf t[0] t[1] t[2] t[3] }
  else s1

/-- What an accepted write of `v` to register `r` by master `m` does, with every consequence (R13 and the owning chapters). -/
def State.applyWrite (m : Master) (r : Reg) (v : Byte) (s : State) : State :=
  match r with
  | .power => s.requestPower v
  | .restart =>
    match m with
    | .host => s.softRestart
    | .head => { s with own.restartPending := true }
  | .owner => s.writeOwner v
  | .rlock => s.writeRlock v
  | .localTime i => s.writeLocalTime m i v
  | .iflags0 => s.clearFlags0 v
  | .iflags1 => { s with ia.flags1 := s.ia.flags1 &&& ~~~v }
  | .ienable0 => { s with ia.enable0 := v }
  | .ienable1 => { s with ia.enable1 := v }
  | .mbDoneMap => { s with ia.mbDone := s.ia.mbDone &&& ~~~v }
  | .fHitMap => { s with ia.fHit := s.ia.fHit &&& ~~~v }
  | .linkCtl => s.writeLinkCtl v
  | .linkAddr => { s with link.addr := v.setWidth 5 }
  | .silence => { s with link.silence := v }
  | .resend => { s with ob.resend := v }
  | .crcErr => { s with link.crcErr := 0 }
  | .formErr => { s with link.formErr := 0 }
  | .collide => { s with link.collide := 0 }
  | .unknown => { s with link.unknown := 0 }
  | .jrank => { s with ob.jrank := v }
  | .patience => { s with ob.patience := v }
  | .jbatch => { s with jr.batchSize := v }
  | .jroute => { s with jr.route := v.setWidth 6 }
  | .jpolicy => { s with jr.policy := v }
  | .jtake => { s with jr := s.jr.take }
  | .iqDefault => { s with ib.dflt := actionOf (v.setWidth 2) }
  | .iqDrops => { s with ib.drops := 0 }
  | .iqtake => { s with ib := s.ib.take }
  | .fsel => s.updCopies m fun c => { c with fsel := Fin.ofNat 8 v.toNat }
  | .mbsel => s.updCopies m fun c => { c with mbsel := Fin.ofNat 6 v.toNat }
  | .lsel => s.updCopies m fun c => { c with lsel := Fin.ofNat 12 v.toNat }
  | .lgoLevel => s.updCopies m fun c => { c with lgoLevel := v.setWidth 4 }
  | .fctl =>
    s.updFilter m fun f =>
      { f with en := v.getLsbD 0, action := actionOf (v.extractLsb' 1 2), notify := v.getLsbD 3 }
  | .fchan => s.updFilter m fun f => { f with chan := v }
  | .fmask => s.updFilter m fun f => { f with mask := v.setWidth 6 }
  | .mbCmd => s.writeMbCmd m v
  | .mbDrops => s.updBox m fun b => { b with drops := 0 }
  | .mbStales => s.updBox m fun b => { b with stales := 0 }
  | .mbChan => s.stageMail m fun c => { c with chan := v }
  | .mbLen => s.stageMail m fun c => { c with len := v }
  | .mbPeriod i => s.stageMail m fun c => { c with period := setPeriodByte c.period i v }
  | .mbData i => s.stageMail m fun c => { c with data := c.data.set i v }
  | .scanCtl => s.writeScanCtl v
  | .matrix => { s with ks.drives := v.extractLsb' 4 3, ks.senses := v.extractLsb' 0 3 }
  | .scanPeriod => { s with ks.period := v }
  | .debounce => { s with ks.debounce := v }
  | .longTime => { s with ks.longTime := v }
  | .rept => { s with ks.rept := v }
  | .senseCtl n => { s with st.inputs := s.st.inputs.set n (s.st.inputs[n].configure v) }
  | .lcfg => s.updLamp m fun l => { l with ctrl := controllerOf v }
  | .lbind => s.updLamp m fun l => l.rebind v s.lm.down
  | .lon => s.updLamp m fun l => { l with lon := v }
  | .loff => s.updLamp m fun l => { l with loff := v }
  | .lcount => s.updLamp m fun l => { l with lcount := v }
  | .ldelay => s.updLamp m fun l => { l with ldelay := v }
  | .lwidth => s.updLamp m fun l => { l with lwidth := v }
  | .lgo => s.writeLgo m v
  | .ldeny => { s with lm.ldeny := 0 }
  | .ident | .revision | .straps | .powerStat | .refAddr | .refCause | .refCount | .serial _ | .linkState | .session
  | .jlocalCount | .jremoteCount | .jtotal | .jwindow _ | .iqCount | .iqwindow _ | .mbState | .keysDown | .ghosts
  | .keymap _ | .senseLevel | .lstate | .unassigned => s

end Sys2Proof.Machine
end

