-- ==== Sys2Proof/Machine/FrameService.lean ====
section
/-! DEFINITION. What a completed frame does: remote register access (chapter 3), the dispatch of valid frames (R32), and the
link wake test (R189). -/

namespace Sys2Proof.Machine

/-! ### Remote reads (R58, R59) -/

/-- The last address of a span lies beyond 0xFF (R58, R60). -/
def pastEnd (addr : Byte) (n : Nat) : Bool := decide (0xFF < addr.toNat + n - 1)

/-- The address `i` places after `addr`. -/
def addrAfter (addr : Byte) (i : Nat) : Byte := addr + BitVec.ofNat 8 i

/-- The snapshotted fields whose capture address lies in a span. -/
def capturedIn (addr : Byte) (n : Nat) : List SnapField :=
  snapFields.filter fun f => decide (addr.toNat ≤ f.span.1) && decide (f.span.1 < addr.toNat + n)

/-- Step 1 of R59: the remote snapshot of every captured field is replaced by its current content. -/
def State.captureSpan (addr : Byte) (n : Nat) (s : State) : State :=
  (capturedIn addr n).foldl (fun acc f => acc.install .head f (s.content .head f)) s

/-- Step 2 of R59: the requested bytes, in ascending address order. -/
def State.readSpan (s : State) (addr : Byte) (n : Nat) : List Byte :=
  (List.range n).map fun i => s.readReg .head (regAt (addrAfter addr i))

/-- The count or the span of a PEEK fails (R58). -/
def peekFails (addr count : Byte) : Bool := count == 0#8 || decide (16 < count.toNat) || pastEnd addr count.toNat

/-- A PEEK acted on (R58, R59). -/
def State.servePeek (addr count : Byte) (s : State) : State :=
  if peekFails addr count then s.replyReceipt Cause.range.code addr
  else
    let s1 := s.captureSpan addr count.toNat
    s1.reply .regval 0 (addr :: s1.readSpan addr count.toNat) []

/-! ### Remote writes (R60 to R63) -/

/-- The exception of R61: a selector byte in range chooses the entry against which the bytes after it are judged. -/
def State.preselect (r : Reg) (v : Byte) (s : State) : State :=
  match r with
  | .fsel | .mbsel | .lsel => s.applyWrite .head r v
  | _ => s

/-- The first byte of a POKE that fails, with its cause, each byte judged against the state before the POKE (R61). -/
def State.firstRefusal (s : State) (addr : Byte) : List Byte → Option (Cause × Byte)
  | [] => none
  | v :: rest =>
    match s.check .head (regAt addr) v with
    | some c => some (c, addr)
    | none => (s.preselect (regAt addr) v).firstRefusal (addr + 1) rest

/-- The bytes of an accepted POKE take effect one after another in ascending address order (R62). -/
def State.writeSpan (s : State) (addr : Byte) : List Byte → State
  | [] => s
  | v :: rest => (s.applyWrite .head (regAt addr) v).writeSpan (addr + 1) rest

/-- A POKE acted on (R60 to R63): refused as a whole, or applied and answered DONE unless it has taken the link OFF. -/
def State.servePoke (addr : Byte) (data : List Byte) (s : State) : State :=
  if pastEnd addr data.length then s.replyReceipt Cause.range.code addr
  else
    match s.firstRefusal addr data with
    | some (c, a) => s.replyReceipt c.code a
    | none =>
      let s1 := s.writeSpan addr data
      if s1.linkOn then s1.replyReceipt 0x10#8 0#8 else s1

/-! ### Dispatch (R32, R33) -/

/-- The link is JOINED. -/
def State.joined (s : State) : Bool := s.link.state == .joined

/-- The link state takes part in the protocol: LISTEN, JOINED or HUSHED. -/
def State.attending (s : State) : Bool := s.link.state == .listen || s.link.state == .joined || s.link.state == .hushed

/-- A plain ROLLCALL to the own address (R43). -/
def State.serveRollcall (s : State) : State := if s.attending then s.join.replyHello else s

/-- A ROLLCALL by serial: six serial bytes and a new address (R44). -/
def State.serveRollcallBySerial (body : List Byte) (s : State) : State :=
  if body.take 6 = serialBytes s.serial then
    if byteAt body 6 = 0#8 then s.unassign else (s.joinAt ((byteAt body 6).setWidth 5)).replyHello
  else s

/-- A POLL (chapter 5). -/
def State.servePoll (av : Bool) (tn : BitVec 3) (s : State) : State := (s.pollStages av tn).replyPoll

/-- A unicast DELIVER (chapter 6), answered with a RECEIPT (R120). -/
def State.serveDeliver (tn : BitVec 3) (chan : Byte) (payload : List Byte) (s : State) : State :=
  let (s1, code, detail) := s.deliver tn chan payload
  s1.replyReceipt code detail

/-- A valid head frame acted on or ignored by its kind and the link state (R32). -/
def State.dispatch (f : Frame) (s : State) : State :=
  match f.kind with
  | .rollcall => if f.body = [] then s.serveRollcall else s.serveRollcallBySerial f.body
  | .poll => if s.joined then s.servePoll f.av f.tn else s
  | .deliver =>
    let chan := byteAt f.body 0
    let payload := f.body.drop 1
    if f.dest = 31#5 then (if s.joined || s.link.state == .hushed then s.deliverAll chan payload else s)
    else if s.joined then s.serveDeliver f.tn chan payload
    else s
  | .peek => if s.joined then s.servePeek (byteAt f.body 0) (byteAt f.body 1) else s
  | .poke => if s.joined then s.servePoke (byteAt f.body 0) (f.body.drop 1) else s
  | .hush => s.hush (halfOf (byteAt f.body 0) (byteAt f.body 1))
  | .beacon =>
    s.beacon (byteAt f.body 0) (wordOf (byteAt f.body 1) (byteAt f.body 2) (byteAt f.body 3) (byteAt f.body 4))
  | .hello | .answer | .nothing | .receipt | .regval => s

/-- A valid satellite-kind frame: a clash if it carries the own address, else nothing (R46). -/
def State.noticeSatellite (f : Frame) (s : State) : State :=
  if f.src = s.link.addr && s.link.addr != 0#5 && s.attending then s.clash else s

/-- A valid frame with SRC 0 restarts the silence watchdog (R48). -/
def State.hearHead (s : State) : State := { s with link.watchdog := 0 }

/-- A classified frame in RUN, DOZE or SETTLING (R27, R32, R46, R48). -/
def State.processFrame (c : FrameClass) (s : State) : State :=
  match c with
  | .badFormat => s.countForm
  | .badCrc => s.countCrc
  | .unknownKind => s.countUnknown
  | .misdirected => s.hearHead
  | .valid f => if f.kind.fromHead then s.hearHead.dispatch f else s.noticeSatellite f

/-! ### The link wake test (R189) -/

/-- The completed frame requests a wake: a plain ROLLCALL to the own address in LISTEN, JOINED or HUSHED, or a BEACON with WAKE
set. -/
def State.wakesFor (s : State) (c : FrameClass) : Bool :=
  match c with
  | .valid f =>
    match f.kind with
    | .rollcall => f.body.isEmpty && s.attending
    | .beacon => (byteAt f.body 0).getLsbD 1
    | .poll | .deliver | .peek | .poke | .hush | .hello | .answer | .nothing | .receipt | .regval => false
  | .badFormat | .badCrc | .unknownKind | .misdirected => false

/-! ### Frame completion (R24, R27) -/

/-- A frame is being received. -/
def State.frameDue (s : State) : Bool := s.listening && s.link.rx.cond == .receiving

/-- The step of a frame completion, the frame consisting of the bytes received so far and these. -/
def State.completeFrame (bytes : List RxByte) (s : State) : State :=
  let c := classify s.link.addr (bytes.foldl Receiver.receive s.link.rx)
  let s1 := { s with link.rx := Receiver.completed }
  match s.pr.state with
  | .sleep => if s1.wakesFor c then s1.requestWake .link 0 else s1
  | .waking => s1
  | .run | .doze | .settling => s1.processFrame c

/-- The event step of a frame whose bytes may depend on the own address and serial number. -/
def frameEvent (bytes : State → List RxByte) (s : State) : State :=
  onEvent State.frameDue (fun s => s.completeFrame (bytes s)) s

/-- A head's unicast frame to the own address. -/
def unicast (kind : FrameKind) (av : Bool) (tn : BitVec 3) (body : List Byte) (s : State) : List RxByte :=
  headFrame s.link.addr kind av tn body

/-- A head's broadcast frame. -/
def broadcast (kind : FrameKind) (tn : BitVec 3) (body : List Byte) : List RxByte := headFrame 31#5 kind false tn body

/-- A write of one byte by the head: the POKE of that byte (log 16). -/
def headWrite (addr v : Byte) (s : State) : State := frameEvent (unicast .poke false 0 [addr, v]) s

end Sys2Proof.Machine
end

