-- ==== Sys2Proof/Machine/FrameCommands.lean ====
section
/-! DEFINITION. The commands that are completed frames (sections 2.3 to 2.15, chapters 3, 5 and 6). -/

namespace Sys2Proof.Machine

/-- FRAME_COMPLETION: any frame, as the bytes seen (R27). -/
def execFrameCompletion (rx : List RxByte) (s : State) : Host.Outcome State Fault Refusal :=
  .next (frameEvent (fun _ => rx) s)

/-- The bytes of a frame that can wake the part (R189). -/
def wakeFrame (f : WakeFrame) (s : State) : List RxByte :=
  match f with
  | .rollcall => unicast .rollcall false 0 [] s
  | .beacon flags time => broadcast .beacon 0 (flags :: bytes32 time)

/-- LINK_WAKE_REQUEST (R189). -/
def execLinkWakeRequest (f : WakeFrame) (s : State) : Host.Outcome State Fault Refusal :=
  .next (frameEvent (wakeFrame f) s)

/-- ROLLCALL (R43). -/
def execRollcall (s : State) : Host.Outcome State Fault Refusal :=
  .next (frameEvent (unicast .rollcall false 0 []) s)

/-- ROLLCALL_BY_SERIAL (R44). -/
def execRollcallBySerial (serial : BitVec 48) (newAddr : Byte) (s : State) : Host.Outcome State Fault Refusal :=
  .next (frameEvent (fun _ => broadcast .rollcall 0 (serialBytes serial ++ [newAddr])) s)

/-- POLL (chapter 5). -/
def execPoll (av : Bool) (tn : BitVec 3) (s : State) : Host.Outcome State Fault Refusal :=
  .next (frameEvent (unicast .poll av tn []) s)

/-- DELIVER (R114 to R120). -/
def execDeliver (tn : BitVec 3) (chan : Byte) (payload : List Byte) (s : State) : Host.Outcome State Fault Refusal :=
  .next (frameEvent (unicast .deliver false tn (chan :: payload)) s)

/-- BROADCAST_DELIVER (R121). -/
def execBroadcastDeliver (tn : BitVec 3) (chan : Byte) (payload : List Byte) (s : State) : Host.Outcome State Fault Refusal :=
  .next (frameEvent (fun _ => broadcast .deliver tn (chan :: payload)) s)

/-- PEEK (R58, R59). -/
def execPeek (addr count : Byte) (s : State) : Host.Outcome State Fault Refusal :=
  .next (frameEvent (unicast .peek false 0 [addr, count]) s)

/-- POKE (R60 to R64). -/
def execPoke (addr : Byte) (data : List Byte) (s : State) : Host.Outcome State Fault Refusal :=
  .next (frameEvent (unicast .poke false 0 (addr :: data)) s)

/-- A HUSH, broadcast or to the own address (R45). -/
def hushFrame (toAll : Bool) (duration : Half) (s : State) : List RxByte :=
  let body := [hiByte duration, loByte duration]
  if toAll then broadcast .hush 0 body else unicast .hush false 0 body s

/-- HUSH (R45). -/
def execHush (toAll : Bool) (duration : Half) (s : State) : Host.Outcome State Fault Refusal :=
  .next (frameEvent (hushFrame toAll duration) s)

/-- BEACON (R49). -/
def execBeacon (flags : Byte) (time : BitVec 32) (s : State) : Host.Outcome State Fault Refusal :=
  .next (frameEvent (fun _ => broadcast .beacon 0 (flags :: bytes32 time)) s)

/-- A frame of kind code `kind` from another satellite that uses the own address. -/
def satelliteFrame (kind : BitVec 4) (body : List Byte) (s : State) : List RxByte :=
  onLine (withCheck (frameHeader 0 s.link.addr kind false 0 body.length ++ body))

/-- CLASH (R46). -/
def execClash (kind : BitVec 4) (body : List Byte) (s : State) : Host.Outcome State Fault Refusal :=
  .next (frameEvent (satelliteFrame kind body) s)

end Sys2Proof.Machine
end

