-- ==== Sys2Proof/Machine/HostTransactions.lean ====
section
/-! DEFINITION. The host port's transactions (chapter 1): what the completion of each byte does in each phase, the local refusal
capture, and the edges of CSN. -/

namespace Sys2Proof.Machine

/-- CSN is low and the host port is in phase `p`: a byte can complete in that phase. -/
def State.inPhase (p : Phase) (s : State) : Bool := s.pins.csnLow && s.hp.phase == p

/-- The output byte for the next byte of the transaction, loaded at the end of a byte's step (R4, R5): 0xFF in IGNORE, the byte
fetched in READ_DATA, else the STATUS byte. -/
def State.loadOut (s : State) : State :=
  match s.hp.phase with
  | .ignore => { s with hp.out := 0xFF#8 }
  | .readData => s
  | .awaitCommand | .awaitAddress | .turnaround | .writeData | .statusStream => { s with hp.out := s.statusByte }

/-- The transaction's command and next phase. -/
def State.setCommand (c : HostCommand) (p : Phase) (s : State) : State := { s with hp.command := c, hp.phase := p }

/-- The byte completed in AWAIT_COMMAND (R5). -/
def State.commandByte (b : Byte) (s : State) : State :=
  (if b = 0xA0#8 then (if s.awake then s.setCommand .write .awaitAddress else s.setCommand .unassigned .ignore)
   else if b = 0xA1#8 then (if s.awake then s.setCommand .read .awaitAddress else s.setCommand .unassigned .ignore)
   else if b = 0xA8#8 then s.setCommand .status .statusStream
   else if b = 0xAF#8 then (s.setCommand .wake .ignore).requestWake .host 0
   else s.setCommand .unassigned .ignore).loadOut

/-- The byte completed in AWAIT_ADDRESS (R6, R7). -/
def State.addressByte (b : Byte) (s : State) : State :=
  { s with hp.pointer := b, hp.phase := if s.hp.command = HostCommand.read then Phase.turnaround else Phase.writeData }.loadOut

/-- The address pointer advances; past 0xFF the transaction stops (R9). -/
def State.advance (s : State) : State :=
  if s.hp.pointer = 0xFF#8 then { s with hp.phase := .ignore } else { s with hp.pointer := s.hp.pointer + 1 }

/-! ### Reads (R7, R15) -/

/-- The register byte at the address pointer is fetched into the output byte; at a capture address it comes from the capture
made in the same step. -/
def State.fetch (s : State) : State :=
  match captureAt s.hp.pointer with
  | some f =>
    let bs := s.content .host f
    { s with hp.capture := some { field := f, bytes := bs }, hp.out := byteAt bs 0 }
  | none => { s with hp.out := s.readReg .host (regAt s.hp.pointer) }

/-- The turnaround byte completed. -/
def State.turnaroundByte (s : State) : State := { s with hp.phase := .readData }.fetch

/-- The pending capture, if any, replaces the local snapshot of its field. -/
def State.settleCapture (s : State) : State :=
  match s.hp.capture with
  | some c => (s.install .host c.field c.bytes) |> fun s1 => { s1 with hp.capture := none }
  | none => s

/-- A READ_DATA byte completed: the capture settles, the pointer advances, and unless the transaction has stopped the next byte
is fetched. -/
def State.readByte (s : State) : State :=
  let s1 := s.settleCapture.advance
  if s1.hp.phase = .readData then s1.fetch else s1.loadOut

/-! ### Writes (R6, R21) -/

/-- A refused local write is captured and counted (R21). -/
def State.captureRefusal (addr : Byte) (c : Cause) (s : State) : State :=
  let s1 := if s.ia.flags0.getLsbD 0 then s else { s with rc.addr := addr, rc.cause := c.code }
  { s1 with rc.count := counted s1.rc.count }.raise0 refusedFlag

/-- One write by the local host to the register at the address pointer (R6): refused, or carried out. A local restart leaves the
address pointer as the restart set it (R11). -/
def State.hostWriteByte (v : Byte) (s : State) : State :=
  let r := regAt s.hp.pointer
  match s.check .host r v with
  | some c => (s.captureRefusal s.hp.pointer c).advance.loadOut
  | none => if r = .restart then s.applyWrite .host r v else (s.applyWrite .host r v).advance.loadOut

/-- A byte completes in WRITE_DATA at address `addr`. -/
def State.writesAt (addr : Byte) (s : State) : Bool := s.inPhase .writeData && s.hp.pointer == addr

/-- The event step of a local write of `v` at `addr`. -/
def hostWrite (addr v : Byte) (s : State) : State := onEvent (State.writesAt addr) (State.hostWriteByte v) s

/-! ### CSN (R4) -/

/-- The fall of CSN: the output byte is loaded with the STATUS byte. -/
def State.fallCsn (s : State) : State := { s with pins.csnLow := true, hp.out := s.statusByte }

/-- The rise of CSN ends the transaction (R4); that no command is then the current one is the model's (DESIGN CHOICE, log
19). -/
def State.riseCsn (s : State) : State :=
  { s with pins.csnLow := false, hp.phase := .awaitCommand, hp.command := .none, hp.capture := none }

end Sys2Proof.Machine
end

