-- ==== Sys2Proof/Machine/HostCommands.lean ====
section
/-! DEFINITION. The commands of the host port: SPI bytes and the edges of CSN (sections 1.1 and 1.2). -/

namespace Sys2Proof.Machine

/-- WRITE (R5, R6). -/
def execWrite (s : State) : Host.Outcome State Fault Refusal :=
  .next (onEvent (State.inPhase .awaitCommand) (State.commandByte 0xA0#8) s)

/-- READ (R5, R7). -/
def execRead (s : State) : Host.Outcome State Fault Refusal :=
  .next (onEvent (State.inPhase .awaitCommand) (State.commandByte 0xA1#8) s)

/-- STATUS (R5, R8). -/
def execStatus (s : State) : Host.Outcome State Fault Refusal :=
  .next (onEvent (State.inPhase .awaitCommand) (State.commandByte 0xA8#8) s)

/-- STATUS_STREAM (R8): the byte is discarded. -/
def execStatusStream (_ : Byte) (s : State) : Host.Outcome State Fault Refusal :=
  .next (onEvent (State.inPhase .statusStream) State.loadOut s)

/-- WAKE (R5, R189). -/
def execWake (s : State) : Host.Outcome State Fault Refusal :=
  .next (onEvent (State.inPhase .awaitCommand) (State.commandByte 0xAF#8) s)

/-- UNASSIGNED_COMMAND (R5). -/
def execUnassignedCommand (b : Byte) (s : State) : Host.Outcome State Fault Refusal :=
  .next (onEvent (State.inPhase .awaitCommand) (State.commandByte b) s)

/-- IGNORED_BYTE (R9): the byte is discarded. -/
def execIgnoredByte (_ : Byte) (s : State) : Host.Outcome State Fault Refusal :=
  .next (onEvent (State.inPhase .ignore) State.loadOut s)

/-- ADDRESS_BYTE (R6, R7). -/
def execAddressByte (b : Byte) (s : State) : Host.Outcome State Fault Refusal :=
  .next (onEvent (State.inPhase .awaitAddress) (State.addressByte b) s)

/-- TURNAROUND (R7): the byte is discarded. -/
def execTurnaround (_ : Byte) (s : State) : Host.Outcome State Fault Refusal :=
  .next (onEvent (State.inPhase .turnaround) State.turnaroundByte s)

/-- READ_DATA (R7, R9): the byte is discarded. -/
def execReadData (_ : Byte) (s : State) : Host.Outcome State Fault Refusal :=
  .next (onEvent (State.inPhase .readData) State.readByte s)

/-- CSN_RISE (R4): while the part is held in reset only the pin changes (R191). -/
def execCsnRise (s : State) : Host.Outcome State Fault Refusal :=
  .next (if s.held then { s with pins.csnLow := false } else onEvent (fun s => s.pins.csnLow) State.riseCsn s)

/-- CSN_FALL (R4): no event step; while the part is held in reset only the pin changes (R191). -/
def execCsnFall (s : State) : Host.Outcome State Fault Refusal :=
  .next (if s.held then { s with pins.csnLow := true } else onMoment (fun s => !s.pins.csnLow) State.fallCsn s)

end Sys2Proof.Machine
end

