-- ==== Sys2Proof/Machine/LineCommands.lean ====
section
/-! DEFINITION. The commands of the link's receiver and transmitter (sections 2.1 and 2.8). -/

namespace Sys2Proof.Machine

/-! ### The receiver and the transmitter (R24, R35 to R37) -/

/-- The receiver awaits the given condition of the line while it listens. -/
def State.hears (c : RxCond) (s : State) : Bool := s.listening && s.link.rx.cond == c

/-- A frame start: a pending reply is cancelled and the receiver is receiving (R24, R37; log 11). -/
def State.startFrame (s : State) : State := { s.cancelPending with link.rx := Receiver.start }

/-- The idle measure has reached 4 byte times (R24). -/
def State.startHunting (s : State) : State := { s with link.rx := { Receiver.awaiting with cond := .hunting, idle := 4 } }

/-- The pending reply begins (R35). R24 gives the receiver's condition at the end of the transmission alone; that it awaits idle,
with an idle measure of 4, while the reply is transmitted is the model's (DESIGN CHOICE, log 23). -/
def State.startReply (s : State) : State :=
  match s.link.tx with
  | .pending r => { s with link.tx := .transmitting r, link.rx := { Receiver.awaiting with idle := 4 } }
  | .idle | .transmitting _ => s

/-- The last stop bit of the reply has been sent (R24, R35). -/
def State.endReply (s : State) : State := { s with link.tx := .idle, link.rx := Receiver.awaiting }

/-- The reply being sent is abandoned (R36). -/
def State.abortReply (s : State) : State := { s.abandonReply with link.rx := Receiver.awaiting }

/-- A start bit cancels the pending reply; if it is a frame start the receiver is receiving (R37). -/
def State.cancelReply (s : State) : State :=
  { s.abandonReply with link.rx := if s.link.rx.cond = .hunting then Receiver.start else Receiver.awaiting }

/-- A byte that is no part of a frame is discarded: the idle measure restarts, and a pending reply is cancelled (R24, R37). -/
def State.discardByte (s : State) : State := { s.cancelPending with link.rx := Receiver.awaiting }

/-- FRAME_START (R24, R37). -/
def execFrameStart (s : State) : Host.Outcome State Fault Refusal :=
  .next (onEvent (State.hears .hunting) State.startFrame s)

/-- HUNTING (R24): no event step. -/
def execHunting (s : State) : Host.Outcome State Fault Refusal :=
  .next (onMoment (State.hears .awaitingIdle) State.startHunting s)

/-- BYTE_WHILE_AWAITING_IDLE (R24): an event step only where it cancels a pending reply (R1, R37). -/
def execByteWhileAwaitingIdle (_ : Byte) (s : State) : Host.Outcome State Fault Refusal :=
  .next (if s.link.tx.isPending then onEvent (State.hears .awaitingIdle) State.discardByte s
    else onMoment (State.hears .awaitingIdle) State.discardByte s)

/-- REPLY_START (R35): no event step. -/
def execReplyStart (s : State) : Host.Outcome State Fault Refusal :=
  .next (onMoment (fun s => s.link.tx.isPending) State.startReply s)

/-- REPLY_END (R35): no event step, but the step of a remote restart where one is pending (R40, R64). -/
def execReplyEnd (s : State) : Host.Outcome State Fault Refusal :=
  .next (if s.own.restartPending then onEvent (fun s => s.link.tx.isTransmitting) State.softRestart s
    else onMoment (fun s => s.link.tx.isTransmitting) State.endReply s)

/-- REPLY_ABORT (R36). -/
def execReplyAbort (s : State) : Host.Outcome State Fault Refusal :=
  .next (onEvent (fun s => s.link.tx.isTransmitting) State.abortReply s)

/-- REPLY_CANCEL (R37). -/
def execReplyCancel (s : State) : Host.Outcome State Fault Refusal :=
  .next (onEvent (fun s => s.link.tx.isPending) State.cancelReply s)

end Sys2Proof.Machine
end

