-- ==== Sys2Proof/Machine/ResetCommands.lean ====
section
/-! DEFINITION. The commands of the resets (sections 11.5 and 11.6, R64). -/

namespace Sys2Proof.Machine

/-- POWER_ON_RESET: the supply is in range; the reset step is taken if RESETN is high (R191, R193). -/
def execPowerOnReset (p : Straps) (s : State) : Host.Outcome State Fault Refusal :=
  .next ({ s with pins.supplyLow := false }.resetUnlessHeld p)

/-- PIN_RESET: RESETN is high; the reset step is taken if the supply is in range (R191, R193). -/
def execPinReset (p : Straps) (s : State) : Host.Outcome State Fault Refusal :=
  .next ({ s with pins.resetnLow := false }.resetUnlessHeld p)

/-- RESET_HELD_LOW: the part is held in reset (R191). -/
def execResetHeldLow (s : State) : Host.Outcome State Fault Refusal :=
  .next ({ s with pins.resetnLow := true })

/-- SUPPLY_BELOW_RANGE: the part is held in reset (R191). -/
def execSupplyBelowRange (s : State) : Host.Outcome State Fault Refusal :=
  .next ({ s with pins.supplyLow := true })

/-- SOFT_RESTART: a local write of 0x01 to RESTART (R11, R192). -/
def execSoftRestart (s : State) : Host.Outcome State Fault Refusal := .next (hostWrite 0x05#8 0x01#8 s)

/-- The restart that a POKE left pending falls due: no RECEIPT is waiting to be sent (R64). -/
def State.restartDue (s : State) : Bool := s.own.restartPending && !s.link.tx.isPending

/-- REMOTE_RESTART: directly after the step that ended its RECEIPT, or at the end of the RECEIPT's transmission (R2, R64,
R192). -/
def execRemoteRestart (s : State) : Host.Outcome State Fault Refusal :=
  .next (if s.restartWaits then eventAfter id State.restartWaits State.softRestart s
    else onEvent State.restartDue State.softRestart s)

end Sys2Proof.Machine
end

