-- ==== Sys2Proof/Machine/ScanCommands.lean ====
section
/-! DEFINITION. The commands of the key scanner (chapter 7). -/

namespace Sys2Proof.Machine

/-- SCAN_COMPLETION (R134, R137). -/
def execScanCompletion (keys : BitVec 48) (s : State) : Host.Outcome State Fault Refusal :=
  .next (scanEvent (fun s => s.ks.due) keys s)

/-- The release of key `k` is accepted in this scan (R135, R138). -/
def State.releases (k : Fin 48) (keys : BitVec 48) (s : State) : Bool :=
  s.scanDue && s.ks.flips keys k && (s.ks.keyState k).pressed

/-- DEBOUNCED_RELEASE: the scan in which key `k`'s release is accepted (R138). -/
def execDebouncedRelease (k : Fin 48) (keys : BitVec 48) (s : State) : Host.Outcome State Fault Refusal :=
  .next (scanEvent (State.releases k keys) keys s)

/-- The press of key `k` is accepted in this scan (R135, R141). -/
def State.presses (k : Fin 48) (keys : BitVec 48) (s : State) : Bool :=
  s.scanDue && s.ks.flips keys k && !(s.ks.keyState k).pressed

/-- DEBOUNCED_PRESS: the scan in which key `k`'s press is accepted (R141). -/
def execDebouncedPress (k : Fin 48) (keys : BitVec 48) (s : State) : Host.Outcome State Fault Refusal :=
  .next (scanEvent (State.presses k keys) keys s)

/-- The DOWN key `k`, not released in this scan, reaches LONGTIME in it (R142). -/
def State.becomesLong (k : Fin 48) (keys : BitVec 48) (s : State) : Bool :=
  s.scanDue && s.ks.keyState k == .down && !s.ks.flips keys k &&
    s.ks.reachesLong (satTime s.ks.keys[k].hold s.ks.clock)

/-- KEY_LONG: the scan in which the DOWN key `k` becomes LONG (R142). -/
def execKeyLong (k : Fin 48) (keys : BitVec 48) (s : State) : Host.Outcome State Fault Refusal :=
  .next (scanEvent (State.becomesLong k keys) keys s)

/-- The LONG key `k`, not released in this scan, repeats in it (R143). -/
def State.repeats (k : Fin 48) (keys : BitVec 48) (s : State) : Bool :=
  s.scanDue && s.ks.keyState k == .long && !s.ks.flips keys k &&
    s.ks.reachesRepeat (satTime s.ks.keys[k].rept s.ks.clock)

/-- KEY_REPEAT: the scan in which the LONG key `k` repeats (R143). -/
def execKeyRepeat (k : Fin 48) (keys : BitVec 48) (s : State) : Host.Outcome State Fault Refusal :=
  .next (scanEvent (State.repeats k keys) keys s)

/-- A wake scan completes: a scan completion is due in SLEEP (R146). -/
def State.wakeScanDue (s : State) : Bool := s.ks.due && s.pr.state == .sleep

/-- WAKE_SCAN (R146). -/
def execWakeScan (keys : BitVec 48) (s : State) : Host.Outcome State Fault Refusal :=
  .next (scanEvent State.wakeScanDue keys s)

end Sys2Proof.Machine
end

