-- ==== Sys2Proof/Machine/TimeCommands.lean ====
section
/-! DEFINITION. The commands of the part's own time: ticks, sleep entry, the end of waking. -/

namespace Sys2Proof.Machine

/-- MS_TICK (R156, R2). -/
def execMsTick (sns : BitVec 4) (s : State) : Host.Outcome State Fault Refusal :=
  .next (tickEvent (fun _ => true) sns s)

/-- Sense input `n` flips at this tick (R152). -/
def State.senseFlips (n : Fin 4) (sns : BitVec 4) (s : State) : Bool :=
  s.awake && s.st.inputs[n].flips (sns.getLsbD n.val)

/-- SENSE_FLIP: the tick in which input `n` flips (R152, R153). -/
def execSenseFlip (n : Fin 4) (sns : BitVec 4) (s : State) : Host.Outcome State Fault Refusal :=
  .next (tickEvent (State.senseFlips n sns) sns s)

/-- SILENCE_WATCHDOG_EXPIRY: the tick in which the watchdog expires (R48). -/
def execSilenceWatchdogExpiry (sns : BitVec 4) (s : State) : Host.Outcome State Fault Refusal :=
  .next (tickEvent State.watchdogExpires sns s)

/-- The quiet-period timer runs out at this tick and the watchdog does not (R45). -/
def State.quietEnds (s : State) : Bool := !s.watchdogExpires && s.quietExpires

/-- QUIET_PERIOD_EXPIRY: the tick in which a limited quiet period runs out (R45). -/
def execQuietPeriodExpiry (sns : BitVec 4) (s : State) : Host.Outcome State Fault Refusal :=
  .next (tickEvent State.quietEnds sns s)

/-- Mailbox `i`'s refresh elapses at this tick (R97). -/
def State.refreshElapses (i : Fin 6) (s : State) : Bool := s.awake && s.ob.boxes[i].elapses

/-- REFRESH_ELAPSE: the tick in which mailbox `i`'s refresh elapses (R99). -/
def execRefreshElapse (i : Fin 6) (sns : BitVec 4) (s : State) : Host.Outcome State Fault Refusal :=
  .next (tickEvent (State.refreshElapses i) sns s)

/-- Lamp `n`'s phase ends at this tick (R170). -/
def State.phaseEnds (n : Fin 12) (s : State) : Bool := s.awake && s.lm.lamps[n].ends

/-- PHASE_END: the tick in which lamp `n`'s phase ends (R171). -/
def execPhaseEnd (n : Fin 12) (sns : BitVec 4) (s : State) : Host.Outcome State Fault Refusal :=
  .next (tickEvent (State.phaseEnds n) sns s)

/-- SLEEP_ENTRY: the end of a step in SETTLING at which nothing stands against sleep (R187). -/
def execSleepEntry (s : State) : Host.Outcome State Fault Refusal :=
  .next (onMoment State.sleepDue State.enterSleep s)

/-- OSCILLATOR_READY: the end of waking, due from the second tick in WAKING (R190); a restart comes before it (R2). -/
def execOscillatorReady (s : State) : Host.Outcome State Fault Refusal :=
  .next (eventAfter State.takeRestart State.oscillatorDue State.finishWake s)

end Sys2Proof.Machine
end

