-- ==== Sys2Proof/Machine/WriteCommands.lean ====
section
/-! DEFINITION. The commands that are writes of a register by either master (chapters 1, 3 to 11). -/

namespace Sys2Proof.Machine

/-- A write of `v` at `addr` by master `m`, in a step of its own (log 16). -/
def writeBy (m : Master) (addr v : Byte) (s : State) : State :=
  match m with
  | .host => hostWrite addr v s
  | .head => headWrite addr v s

/-- A byte with field EN (bit 0) 1. -/
def withEn (v : Byte) : Byte := v ||| 1#8

/-- A byte with field EN (bit 0) 0. -/
def withoutEn (v : Byte) : Byte := v &&& 0xFE#8

/-- The address `i` places after `first`. -/
def registerAfter (first : Byte) (i : Nat) : Byte := first + BitVec.ofNat 8 i

/-- REGISTER_WRITE (R6, R13). -/
def execRegisterWrite (m : Master) (addr v : Byte) (s : State) : Host.Outcome State Fault Refusal :=
  .next (writeBy m addr v s)

/-- GRANT (R53). -/
def execGrant (v : Byte) (s : State) : Host.Outcome State Fault Refusal :=
  .next (writeBy .host 0x06#8 v s)

/-- RECLAIM (R53). -/
def execReclaim (v : Byte) (s : State) : Host.Outcome State Fault Refusal :=
  .next (writeBy .host 0x06#8 v s)

/-- RETURN (R54, R55). -/
def execGiveBack (v : Byte) (s : State) : Host.Outcome State Fault Refusal :=
  .next (writeBy .head 0x06#8 v s)

/-- SEIZE (R54). -/
def execSeize (v : Byte) (s : State) : Host.Outcome State Fault Refusal :=
  .next (writeBy .head 0x06#8 v s)

/-- LOCK (R56). -/
def execLock (v : Byte) (s : State) : Host.Outcome State Fault Refusal :=
  .next (writeBy .head 0x07#8 v s)

/-- UNLOCK (R56). -/
def execUnlock (v : Byte) (s : State) : Host.Outcome State Fault Refusal :=
  .next (writeBy .head 0x07#8 v s)

/-- REQUEST_RUN (R186). -/
def execRequestRun (m : Master) (s : State) : Host.Outcome State Fault Refusal :=
  .next (writeBy m 0x03#8 0#8 s)

/-- REQUEST_DOZE (R186). -/
def execRequestDoze (m : Master) (s : State) : Host.Outcome State Fault Refusal :=
  .next (writeBy m 0x03#8 1#8 s)

/-- REQUEST_SLEEP (R186). -/
def execRequestSleep (m : Master) (s : State) : Host.Outcome State Fault Refusal :=
  .next (writeBy m 0x03#8 2#8 s)

/-- LOCALTIME_STAGE (R16). -/
def execLocaltimeStage (m : Master) (i : Fin 3) (v : Byte) (s : State) : Host.Outcome State Fault Refusal :=
  .next (writeBy m (registerAfter 0x0C#8 i.val) v s)

/-- LOCALTIME_COMMIT (R16, R157). -/
def execLocaltimeCommit (m : Master) (v : Byte) (s : State) : Host.Outcome State Fault Refusal :=
  .next (writeBy m 0x0F#8 v s)

/-- FLAG_CLEAR (R179). -/
def execFlagClear (r : FlagReg) (v : Byte) (s : State) : Host.Outcome State Fault Refusal :=
  .next (writeBy .host (flagAddr r) v s)

/-- REFUSED_CLEAR (R22). -/
def execRefusedClear (v : Byte) (s : State) : Host.Outcome State Fault Refusal :=
  .next (writeBy .host 0x10#8 (v ||| refusedFlag) s)

/-- BITMAP_CLEAR (R180). -/
def execBitmapClear (r : BitmapReg) (v : Byte) (s : State) : Host.Outcome State Fault Refusal :=
  .next (writeBy .host (bitmapAddr r) v s)

/-- COUNTER_CLEAR (R13). -/
def execCounterClear (m : Master) (c : CounterReg) (v : Byte) (s : State) : Host.Outcome State Fault Refusal :=
  .next (writeBy m (counterAddr c) v s)

/-- LINK_ENABLE (R41). -/
def execLinkEnable (m : Master) (v : Byte) (s : State) : Host.Outcome State Fault Refusal :=
  .next (writeBy m 0x20#8 (withEn v) s)

/-- LINK_DISABLE (R41). -/
def execLinkDisable (m : Master) (v : Byte) (s : State) : Host.Outcome State Fault Refusal :=
  .next (writeBy m 0x20#8 (withoutEn v) s)

/-- JTAKE (R76, R77). -/
def execJtake (v : Byte) (s : State) : Host.Outcome State Fault Refusal :=
  .next (writeBy .host 0x3F#8 v s)

/-- IQTAKE (R126, R127). -/
def execIqtake (v : Byte) (s : State) : Host.Outcome State Fault Refusal :=
  .next (writeBy .host 0x5A#8 v s)

/-- LOAD (R96). -/
def execLoad (m : Master) (s : State) : Host.Outcome State Fault Refusal :=
  .next (writeBy m 0x6A#8 1#8 s)

/-- ARM (R96). -/
def execArm (m : Master) (s : State) : Host.Outcome State Fault Refusal := .next (writeBy m 0x6A#8 2#8 s)

/-- CANCEL (R96). -/
def execCancel (m : Master) (s : State) : Host.Outcome State Fault Refusal :=
  .next (writeBy m 0x6A#8 3#8 s)

/-- MAILBOX_STAGE (R17, R94). -/
def execMailboxStage (m : Master) (i : Fin 20) (v : Byte) (s : State) : Host.Outcome State Fault Refusal :=
  .next (writeBy m (registerAfter 0x6D#8 i.val) v s)

/-- SCANNER_ENABLE (R133). -/
def execScannerEnable (m : Master) (v : Byte) (s : State) : Host.Outcome State Fault Refusal :=
  .next (writeBy m 0x90#8 (withEn v) s)

/-- SCANNER_DISABLE (R133, R145). -/
def execScannerDisable (m : Master) (v : Byte) (s : State) : Host.Outcome State Fault Refusal :=
  .next (writeBy m 0x90#8 (withoutEn v) s)

/-- SENSE_ENABLE (R151). -/
def execSenseEnable (m : Master) (n : Fin 4) (v : Byte) (s : State) : Host.Outcome State Fault Refusal :=
  .next (writeBy m (registerAfter 0xA0#8 n.val) (withEn v) s)

/-- SENSE_DISABLE (R151). -/
def execSenseDisable (m : Master) (n : Fin 4) (v : Byte) (s : State) : Host.Outcome State Fault Refusal :=
  .next (writeBy m (registerAfter 0xA0#8 n.val) (withoutEn v) s)

/-- LGO_OFF (R167, R168). -/
def execLgoOff (m : Master) (s : State) : Host.Outcome State Fault Refusal :=
  .next (writeBy m 0xBA#8 0#8 s)

/-- LGO_ON (R167, R168). -/
def execLgoOn (m : Master) (s : State) : Host.Outcome State Fault Refusal :=
  .next (writeBy m 0xBA#8 1#8 s)

/-- LGO_BLINK (R167, R168). -/
def execLgoBlink (m : Master) (s : State) : Host.Outcome State Fault Refusal :=
  .next (writeBy m 0xBA#8 2#8 s)

/-- LGO_PULSE (R167, R168, R169). -/
def execLgoPulse (m : Master) (s : State) : Host.Outcome State Fault Refusal :=
  .next (writeBy m 0xBA#8 3#8 s)

/-- LGO_FOLLOW (R167, R168). -/
def execLgoFollow (m : Master) (s : State) : Host.Outcome State Fault Refusal :=
  .next (writeBy m 0xBA#8 4#8 s)

/-- LBIND_WRITE (R164, R172). -/
def execLbindWrite (m : Master) (v : Byte) (s : State) : Host.Outcome State Fault Refusal :=
  .next (writeBy m 0xB2#8 v s)

end Sys2Proof.Machine
end

