-- ==== Sys2Proof/Machine/Dispatch.lean ====
section
/-! DEFINITION. The dispatch of commands: one arm for each row of the table, in the table's order. -/

namespace Sys2Proof.Machine

def exec (i : Instr) (s : State) : Host.Outcome State Fault Refusal :=
  match i with
  | .powerOnReset straps => Sys2Proof.Machine.execPowerOnReset straps s
  | .pinReset straps => Sys2Proof.Machine.execPinReset straps s
  | .softRestart => Sys2Proof.Machine.execSoftRestart s
  | .remoteRestart => Sys2Proof.Machine.execRemoteRestart s
  | .msTick sns => Sys2Proof.Machine.execMsTick sns s
  | .senseFlip n sns => Sys2Proof.Machine.execSenseFlip n sns s
  | .silenceWatchdogExpiry sns => Sys2Proof.Machine.execSilenceWatchdogExpiry sns s
  | .quietPeriodExpiry sns => Sys2Proof.Machine.execQuietPeriodExpiry sns s
  | .refreshElapse n sns => Sys2Proof.Machine.execRefreshElapse n sns s
  | .phaseEnd n sns => Sys2Proof.Machine.execPhaseEnd n sns s
  | .scanCompletion keys => Sys2Proof.Machine.execScanCompletion keys s
  | .debouncedRelease k keys => Sys2Proof.Machine.execDebouncedRelease k keys s
  | .debouncedPress k keys => Sys2Proof.Machine.execDebouncedPress k keys s
  | .keyLong k keys => Sys2Proof.Machine.execKeyLong k keys s
  | .keyRepeat k keys => Sys2Proof.Machine.execKeyRepeat k keys s
  | .wakeScan keys => Sys2Proof.Machine.execWakeScan keys s
  | .sleepEntry => Sys2Proof.Machine.execSleepEntry s
  | .oscillatorReady => Sys2Proof.Machine.execOscillatorReady s
  | .frameStart => Sys2Proof.Machine.execFrameStart s
  | .hunting => Sys2Proof.Machine.execHunting s
  | .frameCompletion rx => Sys2Proof.Machine.execFrameCompletion rx s
  | .linkWakeRequest f => Sys2Proof.Machine.execLinkWakeRequest f s
  | .rollcall => Sys2Proof.Machine.execRollcall s
  | .rollcallBySerial serial newAddr => Sys2Proof.Machine.execRollcallBySerial serial newAddr s
  | .poll av tn => Sys2Proof.Machine.execPoll av tn s
  | .deliver tn channel payload => Sys2Proof.Machine.execDeliver tn channel payload s
  | .broadcastDeliver tn channel payload => Sys2Proof.Machine.execBroadcastDeliver tn channel payload s
  | .peek addr count => Sys2Proof.Machine.execPeek addr count s
  | .poke addr data => Sys2Proof.Machine.execPoke addr data s
  | .hush broadcast duration => Sys2Proof.Machine.execHush broadcast duration s
  | .beacon flags time => Sys2Proof.Machine.execBeacon flags time s
  | .clash kind body => Sys2Proof.Machine.execClash kind body s
  | .replyStart => Sys2Proof.Machine.execReplyStart s
  | .replyEnd => Sys2Proof.Machine.execReplyEnd s
  | .replyAbort => Sys2Proof.Machine.execReplyAbort s
  | .replyCancel => Sys2Proof.Machine.execReplyCancel s
  | .write => Sys2Proof.Machine.execWrite s
  | .read => Sys2Proof.Machine.execRead s
  | .status => Sys2Proof.Machine.execStatus s
  | .statusStream b => Sys2Proof.Machine.execStatusStream b s
  | .wake => Sys2Proof.Machine.execWake s
  | .unassignedCommand b => Sys2Proof.Machine.execUnassignedCommand b s
  | .ignoredByte b => Sys2Proof.Machine.execIgnoredByte b s
  | .addressByte b => Sys2Proof.Machine.execAddressByte b s
  | .turnaround b => Sys2Proof.Machine.execTurnaround b s
  | .readData b => Sys2Proof.Machine.execReadData b s
  | .csnRise => Sys2Proof.Machine.execCsnRise s
  | .registerWrite m addr v => Sys2Proof.Machine.execRegisterWrite m addr v s
  | .grant v => Sys2Proof.Machine.execGrant v s
  | .reclaim v => Sys2Proof.Machine.execReclaim v s
  | .giveBack v => Sys2Proof.Machine.execGiveBack v s
  | .seize v => Sys2Proof.Machine.execSeize v s
  | .lock v => Sys2Proof.Machine.execLock v s
  | .unlock v => Sys2Proof.Machine.execUnlock v s
  | .requestRun m => Sys2Proof.Machine.execRequestRun m s
  | .requestDoze m => Sys2Proof.Machine.execRequestDoze m s
  | .requestSleep m => Sys2Proof.Machine.execRequestSleep m s
  | .localtimeStage m n v => Sys2Proof.Machine.execLocaltimeStage m n v s
  | .localtimeCommit m v => Sys2Proof.Machine.execLocaltimeCommit m v s
  | .flagClear r v => Sys2Proof.Machine.execFlagClear r v s
  | .refusedClear v => Sys2Proof.Machine.execRefusedClear v s
  | .bitmapClear r v => Sys2Proof.Machine.execBitmapClear r v s
  | .counterClear m c v => Sys2Proof.Machine.execCounterClear m c v s
  | .linkEnable m v => Sys2Proof.Machine.execLinkEnable m v s
  | .linkDisable m v => Sys2Proof.Machine.execLinkDisable m v s
  | .jtake v => Sys2Proof.Machine.execJtake v s
  | .iqtake v => Sys2Proof.Machine.execIqtake v s
  | .load m => Sys2Proof.Machine.execLoad m s
  | .arm m => Sys2Proof.Machine.execArm m s
  | .cancel m => Sys2Proof.Machine.execCancel m s
  | .mailboxStage m n v => Sys2Proof.Machine.execMailboxStage m n v s
  | .scannerEnable m v => Sys2Proof.Machine.execScannerEnable m v s
  | .scannerDisable m v => Sys2Proof.Machine.execScannerDisable m v s
  | .senseEnable m n v => Sys2Proof.Machine.execSenseEnable m n v s
  | .senseDisable m n v => Sys2Proof.Machine.execSenseDisable m n v s
  | .lgoOff m => Sys2Proof.Machine.execLgoOff m s
  | .lgoOn m => Sys2Proof.Machine.execLgoOn m s
  | .lgoBlink m => Sys2Proof.Machine.execLgoBlink m s
  | .lgoPulse m => Sys2Proof.Machine.execLgoPulse m s
  | .lgoFollow m => Sys2Proof.Machine.execLgoFollow m s
  | .lbindWrite m v => Sys2Proof.Machine.execLbindWrite m v s
  | .resetHeldLow => Sys2Proof.Machine.execResetHeldLow s
  | .supplyBelowRange => Sys2Proof.Machine.execSupplyBelowRange s
  | .csnFall => Sys2Proof.Machine.execCsnFall s
  | .byteWhileAwaitingIdle b => Sys2Proof.Machine.execByteWhileAwaitingIdle b s

end Sys2Proof.Machine
end

