-- ==== Sys2Proof/Safety.lean ====
section
/-! DEFINITION. What counts as a safe run of the S48: the relations between the pieces of its state that hold after every reset
and at the end of every event step. And the terms in which the statements say when a command's event reaches the part. -/

namespace Sys2Proof.Machine

/-! ### Relations that every step keeps -/

/-- RLOCK holds no 1 for a group of the local host (R55). -/
def State.locksOwned (s : State) : Prop := s.own.rlock &&& ~~~s.own.owner = 0#6

/-- REFCOUNT is 0 exactly when REFUSED is clear (R22). -/
def State.refusalsCounted (s : State) : Prop := s.rc.count = 0#8 ↔ s.ia.flags0.getLsbD 0 = false

/-- The link engine's conditions agree with each other (R23, R24, R41, R42, R45, R47, R187). -/
structure State.LinkSound (s : State) : Prop where
  /-- EN is 1 exactly while the link is not OFF. -/
  enabled : s.link.en = s.linkOn
  /-- The own address is 0..30. -/
  address : s.link.addr ≠ 31#5
  /-- No frame is received while a reply is pending or transmitted. -/
  halfDuplex : s.link.rx.cond = .receiving → s.link.tx = .idle
  /-- A reply exists only while the link is on and not CLASHED. -/
  speaks : s.link.tx ≠ .idle → s.linkOn = true ∧ s.link.state ≠ .clashed
  /-- In SLEEP and WAKING the transmitter is idle. -/
  asleep : s.awake = false → s.link.tx = .idle
  /-- The quiet-period timer is loaded only in HUSHED. -/
  quiet : s.link.quiet ≠ .stopped → s.link.state = .hushed

/-- The relations of R91. -/
structure State.OutboundSound (s : State) : Prop where
  joined : s.ob.inFlight ≠ none → s.link.state = .joined
  turn : ∀ f, s.ob.inFlight = some f → f.turn = s.ob.nextTurn
  offered : ∀ i : Fin 6, s.ob.boxes[i].state = .offered ↔ ∃ f, s.ob.inFlight = some f ∧ f.item = .mailbox i
  batch : s.jr.batch ≠ none ↔ ∃ f, s.ob.inFlight = some f ∧ f.item = .batch
  cancel : ∀ i : Fin 6, s.ob.boxes[i].cancelPending = true → s.ob.boxes[i].state = .offered

/-- The journal's relations (R72 to R74, R88). -/
structure State.JournalSound (s : State) : Prop where
  /-- The list holds at most 64 records. -/
  room : s.jr.list.length ≤ Config.journalRecords
  /-- Every record has at least one want. -/
  wanted : ∀ r ∈ s.jr.list, r.wanted = true
  /-- A pinned record has want_remote, and belongs to a batch. -/
  pinned : ∀ r ∈ s.jr.list, r.pinned = true → r.wantRemote = true ∧ s.jr.batch ≠ none
  /-- The presented loss is 0 while no record is presented. -/
  loss : s.jr.presented = none → s.jr.presentedLoss = 0#8
  /-- While the link is OFF the head is owed nothing. -/
  offline : s.linkOn = false → (∀ r ∈ s.jr.list, r.wantRemote = false) ∧ s.jr.remoteLost = 0#8

/-- The relations of the key states and of the lamps that follow them (R132, R133, R136, R144, R172). -/
structure State.KeysSound (s : State) : Prop where
  /-- At most four keys are counted. -/
  rollover : s.ks.countedKeys ≤ Config.rollover
  /-- A disabled scanner holds every key UP, and no scan is due. -/
  disabled : s.ks.en = false → s.ks.keys = Vector.replicate 48 Key.up ∧ s.ks.due = false
  /-- A key outside the used area is UP. -/
  area : ∀ k : Fin 48, s.ks.used k = false → s.ks.keys[k] = Key.up
  /-- The lamp engine's down set is the scanner's set of counted keys. -/
  down : s.lm.down = s.ks.downSet
  /-- A lamp in FOLLOW is in line with the down set. -/
  follow : ∀ n : Fin 12, s.lm.lamps[n].phase.following = true → s.lm.lamps[n].phase = s.lm.lamps[n].followPhase s.lm.down

/-- The inbound queue's relations (R124). -/
structure State.InboxSound (s : State) : Prop where
  room : s.ib.queue.length ≤ Config.queueRecords
  fields : ∀ r ∈ s.ib.queue, r.chan.toNat ≤ 63 ∧ r.payload.length ≤ 16 ∧ r.filt ≤ 8
  /-- The tags follow one another without a gap, up to the next tag. -/
  tags : ∀ i : Nat, ∀ h : i < s.ib.queue.length,
    (s.ib.queue[i]).tag = s.ib.nextTag - BitVec.ofNat 8 (s.ib.queue.length - i)

/-- An input that is disabled or not primed has debounced level 0 and debounce counter 0 (R150). -/
def State.inputsSound (s : State) : Prop :=
  ∀ n : Fin 4, (s.st.inputs[n].en = false ∨ s.st.inputs[n].primed = false) →
    s.st.inputs[n].level = false ∧ s.st.inputs[n].counter = 0

/-- A lamp's record (R162, R164, R171): a lamp that is OFF has level 0, and a phase has time left exactly if it has a timer. -/
structure Lamp.Sound (l : Lamp) : Prop where
  times : l.lon ≠ 0#8 ∧ l.loff ≠ 0#8 ∧ l.lwidth ≠ 0#8
  off : l.phase = .off → l.level = 0#4
  timed : l.phase.timed = true → 1 ≤ l.remaining ∧ l.remaining ≤ 2550
  untimed : l.phase.timed = false → l.remaining = 0

/-- Every lamp's record. -/
def State.lampsSound (s : State) : Prop := ∀ n : Fin 12, s.lm.lamps[n].Sound

/-- The host port's relations (R4 to R7, R15), but for a part held in reset, which has no transactions. -/
structure State.PortSound (s : State) : Prop where
  /-- With CSN high no transaction is under way. -/
  idle : s.held = false → s.pins.csnLow = false → s.hp.phase = .awaitCommand
  /-- In SLEEP and WAKING no WRITE or READ is under way. -/
  asleep : s.awake = false → s.hp.phase = .awaitCommand ∨ s.hp.phase = .statusStream ∨ s.hp.phase = .ignore
  /-- An address is awaited only by a WRITE or a READ. -/
  address : s.hp.phase = .awaitAddress → s.hp.command = .write ∨ s.hp.command = .read
  /-- A capture is pending only while its byte is shifted out. -/
  capture : s.hp.capture ≠ none → s.hp.phase = .readData

/-- POWER holds the request that the power state comes from (R186, R190), and a wake under way has its cause recorded. -/
structure State.PowerSound (s : State) : Prop where
  run : s.pr.state = .run → s.pr.power = 0#8
  doze : s.pr.state = .doze → s.pr.power = 1#8
  sleep : s.pr.state = .settling ∨ s.pr.state = .sleep ∨ s.pr.state = .waking → s.pr.power = 2#8
  request : s.pr.request ≠ none ↔ s.pr.state = .waking

/-! ### When a command's event reaches the part -/

/-- No step is due that R2 takes before the next event of another kind. -/
structure State.Settled (s : State) : Prop where
  restart : s.restartWaits = false
  oscillator : s.oscillatorDue = false
  scan : s.scanWaits = false

/-- The next event is taken as it comes: the part is not held in reset, and no other step is due before it. -/
structure State.Ready (s : State) : Prop where
  running : s.held = false
  settled : s.Settled

/-- A scan completion is due, and no other step before it. -/
structure State.ScanReady (s : State) : Prop where
  running : s.held = false
  restart : s.restartWaits = false
  due : s.ks.due = true

/-- A byte completes in phase `p` of a transaction. -/
def State.byteReady (p : Phase) (s : State) : Prop := s.Ready ∧ s.pins.csnLow = true ∧ s.hp.phase = p

/-- A frame is being received, of which no byte has been seen yet. -/
def State.frameReady (s : State) : Prop := s.Ready ∧ s.listening = true ∧ s.link.rx = Receiver.start

/-- The own address is a satellite's: 1..30 (R25). -/
def State.addressed (s : State) : Prop := 1 ≤ s.link.addr.toNat ∧ s.link.addr.toNat ≤ 30

/-- The state in which a completed valid head frame is dispatched: the receiver awaits idle and the watchdog restarts from 0. -/
def State.heard (s : State) : State := { s with link.rx := Receiver.completed, link.watchdog := 0 }

/-- A write of a byte at `addr` by master `m` reaches the access check: the host by an SPI WRITE at that address, the head by a
POKE served in JOINED. -/
def State.writeReady (m : Master) (addr : Byte) (s : State) : Prop :=
  s.awake = true ∧
    match m with
    | .host => s.byteReady .writeData ∧ s.hp.pointer = addr
    | .head => s.frameReady ∧ s.link.state = .joined ∧ s.addressed

/-- Master `m` owns group `g` (R51). -/
def State.owns (s : State) (m : Master) (g : Group) : Prop := s.ownedByOther m g = false

/-- The state in which a write by `m` takes effect. -/
def State.opened (m : Master) (s : State) : State :=
  match m with
  | .host => s
  | .head => s.heard

/-- What the step of an accepted write by `m` does after the write's own effect: the host's address pointer advances and the
output byte is loaded; the head is answered DONE unless the link is OFF, and the step ends (R6, R63, R187). -/
def State.closed (m : Master) (s : State) : State :=
  match m with
  | .host => s.advance.loadOut
  | .head => (if s.linkOn then s.replyReceipt 0x10#8 0#8 else s).endOfStep

/-- What the step of a refused write at `addr` by `m` does: the local refusal capture (R21), or a RECEIPT (R63). -/
def State.refusedWrite (m : Master) (addr : Byte) (c : Cause) (s : State) : State :=
  match m with
  | .host => (s.captureRefusal addr c).advance.loadOut
  | .head => (s.heard.replyReceipt c.code addr).endOfStep

/-! ### Table 11-1 (R193) -/

/-- The power-on column of Table 11-1, after a reset that sampled the straps `p`. -/
structure State.PowerOnTable (p : Straps) (t : State) : Prop where
  power : t.pr.straps = p ∧ t.pr.power = 0 ∧ t.pr.state = .run ∧ t.pr.cause = .key ∧ t.pr.woken = false
  ownership : t.own = { owner := if p.hostless then 0x3F#6 else 0#6, rlock := 0#6, restartPending := false }
  configuration : t.link.en = p.hostless ∧ t.link.rate = p.rate ∧ t.link.addr = (if p.addr = 31#5 then 0#5 else p.addr) ∧
    t.link.silence = 50 ∧ t.ob.resend = 6 ∧ t.ob.jrank = 3 ∧ t.ob.patience = 4 ∧ t.jr.batchSize = 4 ∧ t.jr.policy = 0 ∧
    t.jr.route = (if p.hostless then 0x2A#6 else 0x15#6) ∧
    t.ib.dflt = (if p.hostless then .discard else .queue) ∧ t.ks.en = false ∧ t.ks.sleepWake = false ∧
    t.ks.drives = 7 ∧ t.ks.senses = 5 ∧ t.ks.period = 4 ∧ t.ks.debounce = 3 ∧ t.ks.longTime = 40 ∧ t.ks.rept = 0
  link : t.link.state = (if p.hostless then .listen else .off) ∧ t.link.rx = Receiver.awaiting ∧ t.link.tx = .idle ∧
    t.link.session = 0 ∧ t.link.watchdog = 0 ∧ t.link.quiet = .stopped ∧ t.link.crcErr = 0 ∧ t.link.formErr = 0 ∧
    t.link.collide = 0 ∧ t.link.unknown = 0
  refusal : t.rc = { addr := 0, cause := 0, count := 0 }
  outbound : t.ob.nextTurn = 0 ∧ t.ob.inFlight = none ∧ t.ob.passed = 0
  boxes : ∀ i : Fin 6, t.ob.boxes[i].mail = Mail.zero ∧ t.ob.boxes[i].state = .empty ∧ t.ob.boxes[i].running = false ∧
    t.ob.boxes[i].cancelPending = false ∧ t.ob.boxes[i].drops = 0 ∧ t.ob.boxes[i].stales = 0
  journal : t.jr.list = [] ∧ t.jr.nextSeq = 0 ∧ t.jr.localLost = 0 ∧ t.jr.remoteLost = 0 ∧ t.jr.presentedLoss = 0 ∧
    t.jr.batch = none
  inbound : t.ib.queue = [] ∧ t.ib.nextTag = 0 ∧ t.ib.lastTurn = 7 ∧ t.ib.drops = 0
  filters : ∀ i : Fin 8, t.ib.filters[i] = { en := false, action := .queue, notify := false, chan := 0, mask := 0x3F#6 }
  keys : ∀ k : Fin 48, t.ks.keys[k] = { state := .up, deb := 0, hold := 0, rept := 0, ordinal := 0 }
  clock : t.ks.clock = 0
  time : t.st.localTime = 0 ∧ t.st.timeSet = false
  inputs : ∀ n : Fin 4, t.st.inputs[n].senseCtl = 0x50#8 ∧ t.st.inputs[n].primed = false ∧
    t.st.inputs[n].level = false ∧ t.st.inputs[n].counter = 0
  lamps : ∀ n : Fin 12, t.lm.lamps[n] =
    { ctrl := .either, bind := BitVec.ofNat 8 n, lon := 50, loff := 50, lcount := 0, ldelay := 0, lwidth := 50,
      phase := .off, level := 0, remaining := 0, count := 0 }
  denied : t.lm.ldeny = 0 ∧ t.lm.down = 0
  flags : t.ia.flags0 = 0 ∧ t.iflags1 = 0x10#8 ∧ t.ia.enable0 = 0 ∧ t.ia.enable1 = 0 ∧ t.ia.mbDone = 0 ∧ t.ia.fHit = 0
  copies : ∀ m, (t.copies m).fsel = 0 ∧ (t.copies m).mbsel = 0 ∧ (t.copies m).lsel = 0 ∧ (t.copies m).lgoLevel = 0 ∧
    (t.copies m).snap = Snapshots.zero ∧ (t.copies m).mail = Mail.zero ∧ (t.copies m).time = Vector.replicate 4 0
  port : t.hp.phase = (if t.pins.csnLow then .ignore else .awaitCommand) ∧ t.hp.pointer = 0 ∧ t.hp.capture = none

/-- The soft-restart column of Table 11-1: what is cleared in `t`, and what is kept from `s`. -/
structure State.SoftRestartTable (s t : State) : Prop where
  power : t.pr.straps = s.pr.straps ∧ t.pr.power = 0 ∧ t.pr.state = .run ∧ t.pr.cause = .key ∧ t.pr.woken = false
  ownership : t.own = { owner := s.own.owner, rlock := 0#6, restartPending := false }
  configuration : t.link.en = s.link.en ∧ t.link.rate = s.link.rate ∧ t.link.addr = s.link.addr ∧
    t.link.silence = s.link.silence ∧ t.ob.resend = s.ob.resend ∧ t.ob.jrank = s.ob.jrank ∧
    t.ob.patience = s.ob.patience ∧ t.jr.batchSize = s.jr.batchSize ∧ t.jr.policy = s.jr.policy ∧
    t.jr.route = s.jr.route ∧ t.ib.dflt = s.ib.dflt ∧ t.ks.en = s.ks.en ∧ t.ks.sleepWake = s.ks.sleepWake ∧
    t.ks.drives = s.ks.drives ∧ t.ks.senses = s.ks.senses ∧ t.ks.period = s.ks.period ∧
    t.ks.debounce = s.ks.debounce ∧ t.ks.longTime = s.ks.longTime ∧ t.ks.rept = s.ks.rept
  link : t.link.state = (if s.link.en then .listen else .off) ∧ t.link.rx = Receiver.awaiting ∧ t.link.tx = .idle ∧
    t.link.session = s.link.session ∧ t.link.watchdog = 0 ∧ t.link.quiet = .stopped ∧ t.link.crcErr = 0 ∧
    t.link.formErr = 0 ∧ t.link.collide = 0 ∧ t.link.unknown = 0
  refusal : t.rc = { addr := 0, cause := 0, count := 0 }
  outbound : t.ob.nextTurn = 0 ∧ t.ob.inFlight = none ∧ t.ob.passed = 0
  boxes : ∀ i : Fin 6, t.ob.boxes[i].mail = s.ob.boxes[i].mail ∧ t.ob.boxes[i].state = .empty ∧
    t.ob.boxes[i].running = false ∧ t.ob.boxes[i].cancelPending = false ∧ t.ob.boxes[i].drops = 0 ∧
    t.ob.boxes[i].stales = 0
  journal : t.jr.list = [] ∧ t.jr.nextSeq = 0 ∧ t.jr.localLost = 0 ∧ t.jr.remoteLost = 0 ∧ t.jr.presentedLoss = 0 ∧
    t.jr.batch = none
  inbound : t.ib.queue = [] ∧ t.ib.nextTag = 0 ∧ t.ib.lastTurn = 7 ∧ t.ib.drops = 0
  filters : t.ib.filters = s.ib.filters
  keys : ∀ k : Fin 48, t.ks.keys[k] = { state := .up, deb := 0, hold := 0, rept := 0, ordinal := 0 }
  clock : t.ks.clock = 0
  time : t.st.localTime = s.st.localTime ∧ t.st.timeSet = false
  inputs : ∀ n : Fin 4, t.st.inputs[n] = { s.st.inputs[n] with primed := false, level := false, counter := 0 }
  lamps : ∀ n : Fin 12, t.lm.lamps[n] = { s.lm.lamps[n] with phase := .off, level := 0, remaining := 0, count := 0 }
  denied : t.lm.ldeny = 0 ∧ t.lm.down = 0
  flags : t.ia.flags0 = 0 ∧ t.iflags1 = 0x10#8 ∧ t.ia.enable0 = s.ia.enable0 ∧ t.ia.enable1 = s.ia.enable1 ∧
    t.ia.mbDone = 0 ∧ t.ia.fHit = 0
  copies : ∀ m, (t.copies m).fsel = 0 ∧ (t.copies m).mbsel = 0 ∧ (t.copies m).lsel = 0 ∧ (t.copies m).lgoLevel = 0 ∧
    (t.copies m).snap = Snapshots.zero ∧ (t.copies m).mail = (s.copies m).mail ∧ (t.copies m).time = (s.copies m).time
  port : t.hp.phase = (if s.pins.csnLow then .ignore else .awaitCommand) ∧ t.hp.pointer = 0 ∧ t.hp.capture = none

/-! ### The rows whose steps keep R2's order by themselves -/

/-- The command is about a reset: what is due with it is not processed (R2, R191). -/
def ofReset : Instr → Bool
  | .powerOnReset _ | .pinReset _ | .resetHeldLow | .supplyBelowRange => true
  | _ => false

/-- The command is a scan completion, whole or under the name of what comes about in it. -/
def ofScan : Instr → Bool
  | .scanCompletion _ | .debouncedRelease .. | .debouncedPress .. | .keyLong .. | .keyRepeat .. | .wakeScan _ => true
  | _ => false

/-! ### The rules of a frame (R28) -/

/-- The direction rule: a head kind carries SRC 0, a satellite kind SRC 1..30 and DEST 0. -/
abbrev Frame.directionRule (f : Frame) : Prop :=
  (f.kind.code.toNat ≤ 7 → f.src = 0#5) ∧
    (9 ≤ f.kind.code.toNat → 1 ≤ f.src.toNat ∧ f.src.toNat ≤ 30 ∧ f.dest = 0#5)

/-- The body rule: the LEN values that each head kind allows, and its further rule. -/
abbrev Frame.bodyRule (f : Frame) : Prop :=
  (f.kind = .rollcall → f.body.length = 0 ∨ (f.body.length = 7 ∧ f.dest = 31#5 ∧ (byteAt f.body 6).toNat ≤ 30)) ∧
    (f.kind = .poll → f.body.length = 0) ∧
    (f.kind = .deliver → 1 ≤ f.body.length ∧ f.body.length ≤ 17) ∧
    (f.kind = .peek → f.body.length = 2) ∧
    (f.kind = .poke → 2 ≤ f.body.length ∧ f.body.length ≤ 17) ∧
    (f.kind = .hush → f.body.length = 2) ∧
    (f.kind = .beacon → f.body.length = 5 ∧ f.dest = 31#5)

/-- The addressing rule: when a head kind is misdirected, for a part with the address `own`. -/
abbrev Frame.misdirectedAt (own : BitVec 5) (f : Frame) : Prop :=
  f.kind.code.toNat ≤ 7 ∧
    (f.dest = 0#5 ∨ (f.dest ≠ 31#5 ∧ f.dest ≠ own) ∨
      (f.dest = 31#5 ∧ ((f.kind = .rollcall ∧ f.body.length = 0) ∨ f.kind = .poll ∨ f.kind = .peek ∨ f.kind = .poke)))

/-! ### What registers read (R12 to R15) -/

/-- What master `m` reads at each address of Table 1-1, field by field, the highest field first. -/
structure State.ReadTable (s : State) (m : Master) (rd : Byte → Byte) : Prop where
  identity : rd 0x00 = 0x3B#8 ∧ rd 0x01 = 0x02#8 ∧
    rd 0x18 = s.serial.extractLsb' 40 8 ∧ rd 0x19 = s.serial.extractLsb' 32 8 ∧ rd 0x1A = s.serial.extractLsb' 24 8 ∧
    rd 0x1B = s.serial.extractLsb' 16 8 ∧ rd 0x1C = s.serial.extractLsb' 8 8 ∧ rd 0x1D = s.serial.extractLsb' 0 8
  power : rd 0x02 = s.pr.straps.rate ++ BitVec.ofBool s.pr.straps.hostless ++ s.pr.straps.addr ∧ rd 0x03 = s.pr.power ∧
    rd 0x04 = 0#1 ++ BitVec.ofBool s.pr.woken ++
      (match s.pr.cause with | .key => 0#2 | .sense => 1#2 | .link => 2#2 | .host => 3#2) ++ 0#1 ++
      (match s.pr.state with | .run => 0#3 | .doze => 1#3 | .settling => 2#3 | .sleep => 3#3 | .waking => 4#3)
  ownership : rd 0x06 = 0#2 ++ s.own.owner ∧ rd 0x07 = 0#2 ++ s.own.rlock
  refusal : rd 0x08 = s.rc.addr ∧ rd 0x09 = s.rc.cause ∧ rd 0x0A = s.rc.count
  flags : rd 0x10 = s.ia.flags0 ∧
    (rd 0x11).getLsbD 7 = s.jr.list.any (·.wantLocal) ∧ (rd 0x11).getLsbD 6 = !s.ib.queue.isEmpty ∧
    (∀ n : Fin 6, (rd 0x11).getLsbD n.val = s.ia.flags1.getLsbD n.val) ∧
    rd 0x12 = s.ia.enable0 ∧ rd 0x13 = s.ia.enable1 ∧ rd 0x14 = s.ia.mbDone ∧ rd 0x15 = s.ia.fHit
  link : rd 0x20 = 0#5 ++ s.link.rate ++ BitVec.ofBool s.link.en ∧ rd 0x21 = 0#3 ++ s.link.addr ∧ rd 0x22 = s.link.silence ∧
    rd 0x24 = (match s.link.state with | .off => 0#8 | .listen => 1#8 | .joined => 2#8 | .hushed => 3#8 | .clashed => 4#8) ∧
    rd 0x25 = s.link.session ∧ rd 0x26 = s.link.crcErr ∧ rd 0x27 = s.link.formErr ∧ rd 0x28 = s.link.collide ∧
    rd 0x29 = s.link.unknown
  outbound : rd 0x23 = s.ob.resend ∧ rd 0x2B = s.ob.jrank ∧ rd 0x2C = s.ob.patience
  journal : rd 0x2D = s.jr.batchSize ∧ rd 0x30 = 0#2 ++ s.jr.route ∧ rd 0x31 = s.jr.policy ∧
    rd 0x32 = BitVec.ofNat 8 (s.jr.list.filter (·.wantLocal)).length ∧
    rd 0x33 = BitVec.ofNat 8 (s.jr.list.filter (·.wantRemote)).length ∧ rd 0x34 = BitVec.ofNat 8 s.jr.list.length
  inbound : rd 0x40 = BitVec.ofNat 8 s.ib.queue.length ∧
    rd 0x41 = (match s.ib.dflt with | .queue => 0#8 | .lamp => 1#8 | .both => 2#8 | .discard => 3#8) ∧ rd 0x42 = s.ib.drops
  filter : ∀ f, f = s.ib.filters[(s.copies m).fsel] →
    rd 0x61 = 0#4 ++ BitVec.ofBool f.notify ++
      (match f.action with | .queue => 0#2 | .lamp => 1#2 | .both => 2#2 | .discard => 3#2) ++ BitVec.ofBool f.en ∧
    rd 0x62 = f.chan ∧ rd 0x63 = 0#2 ++ f.mask
  mailbox : ∀ b, b = s.ob.boxes[(s.copies m).mbsel] →
    rd 0x69 = 0#4 ++ BitVec.ofBool b.cancelPending ++ BitVec.ofBool b.running ++
      (match b.state with | .empty => 0#2 | .ready => 1#2 | .offered => 2#2) ∧
    rd 0x6B = b.drops ∧ rd 0x6C = b.stales ∧ rd 0x6D = b.mail.chan ∧ rd 0x6E = b.mail.len ∧
    ∀ i : Fin 16, rd (0x71#8 + BitVec.ofNat 8 i.val) = b.mail.data[i]
  scanner : rd 0x90 = 0#6 ++ BitVec.ofBool s.ks.sleepWake ++ BitVec.ofBool s.ks.en ∧
    rd 0x91 = 0#1 ++ s.ks.drives ++ 0#1 ++ s.ks.senses ∧ rd 0x92 = s.ks.period ∧ rd 0x93 = s.ks.debounce ∧
    rd 0x94 = s.ks.longTime ∧ rd 0x95 = s.ks.rept ∧
    rd 0x96 = BitVec.ofNat 8
      ((List.finRange 48).filter fun k => s.ks.keys[k].state = .down ∨ s.ks.keys[k].state = .long).length ∧
    rd 0x97 = BitVec.ofNat 8 ((List.finRange 48).filter fun k => s.ks.keys[k].state = .suspect).length
  sense : (∀ n : Fin 4, rd (0xA0#8 + BitVec.ofNat 8 n.val) =
      s.st.inputs[n].debounce ++ BitVec.ofBool s.st.inputs[n].wake ++
        (match s.st.inputs[n].edge with | .rise => 0#2 | .fall => 1#2 | .both => 2#2) ++ BitVec.ofBool s.st.inputs[n].en) ∧
    rd 0xA4 = 0#4 ++ BitVec.ofBool s.st.inputs[3].level ++ BitVec.ofBool s.st.inputs[2].level ++
      BitVec.ofBool s.st.inputs[1].level ++ BitVec.ofBool s.st.inputs[0].level
  lamp : ∀ l, l = s.lm.lamps[(s.copies m).lsel] →
    rd 0xB1 = (match l.ctrl with | .localOnly => 0#8 | .remoteOnly => 1#8 | .either => 2#8) ∧ rd 0xB2 = l.bind ∧
    rd 0xB3 = l.lon ∧ rd 0xB4 = l.loff ∧ rd 0xB5 = l.lcount ∧ rd 0xB6 = l.ldelay ∧ rd 0xB7 = l.lwidth ∧
    rd 0xB8 = l.level ++
      (match l.phase with
        | .off => 0#4 | .on => 9#4 | .blinkLit => 10#4 | .blinkDark => 3#4
        | .pulseWait => 4#4 | .pulseLit => 13#4 | .followLit => 14#4 | .followDark => 7#4)
  denied : rd 0xBB = s.lm.ldeny
  copies : rd 0x60 = BitVec.ofNat 8 (s.copies m).fsel.val ∧ rd 0x68 = BitVec.ofNat 8 (s.copies m).mbsel.val ∧
    rd 0xB0 = BitVec.ofNat 8 (s.copies m).lsel.val ∧ rd 0xB9 = 0#4 ++ (s.copies m).lgoLevel
  snapshots : (∀ i : Fin 4, rd (0x0C#8 + BitVec.ofNat 8 i.val) = byteAt (s.copies m).snap.time i) ∧
    (∀ i : Fin 7, rd (0x38#8 + BitVec.ofNat 8 i.val) = byteAt (s.copies m).snap.journal i) ∧
    (∀ i : Fin 22, rd (0x44#8 + BitVec.ofNat 8 i.val) = byteAt (s.copies m).snap.inbound i) ∧
    (∀ i : Fin 2, rd (0x6F#8 + BitVec.ofNat 8 i.val) = byteAt (s.copies m).snap.period i) ∧
    ∀ i : Fin 6, rd (0x98#8 + BitVec.ofNat 8 i.val) = byteAt (s.copies m).snap.keymap i
  /-- Command registers and unassigned addresses read 0x00 (R9, R13). -/
  nothing : ∀ a ∈ [0x05#8, 0x0B#8, 0x16#8, 0x17#8, 0x1E#8, 0x1F#8, 0x2A#8, 0x2E#8, 0x2F#8, 0x35#8, 0x36#8, 0x37#8, 0x3F#8,
      0x43#8, 0x5A#8, 0x5B#8, 0x5C#8, 0x5D#8, 0x5E#8, 0x5F#8, 0x64#8, 0x65#8, 0x66#8, 0x67#8, 0x6A#8, 0x9E#8, 0x9F#8,
      0xBA#8], rd a = 0#8
  beyond : ∀ a : Byte, (0x81 ≤ a.toNat ∧ a.toNat ≤ 0x8F) ∨ (0xA5 ≤ a.toNat ∧ a.toNat ≤ 0xAF) ∨ 0xBC ≤ a.toNat → rd a = 0#8

/-- What a capture copies of the journal window (R75), the inbound window (R125), LOCALTIME (R14) and KEYMAP (R148). -/
structure State.CaptureTable (s : State) : Prop where
  noRecord : (∀ x ∈ s.jr.list, x.wantLocal = false) → s.jr.window = [0, 0, 0, 0, 0, 0, 0]
  record : ∀ (older newer : List JRecord) (r : JRecord), s.jr.list = older ++ r :: newer →
    (∀ x ∈ older, x.wantLocal = false) → r.wantLocal = true →
    s.jr.window = [r.seq,
      (match r.kind with
        | .keyDown => 1 | .keyLong => 2 | .keyRepeat => 3 | .keyUp => 4 | .ghost => 5
        | .senseRise => 6 | .senseFall => 7 | .lampEnd => 8 | .woke => 9),
      r.subject, r.detail, r.stamp.extractLsb' 8 8, r.stamp.extractLsb' 0 8, s.jr.presentedLoss]
  noDelivery : s.ib.queue = [] → s.ib.window = List.replicate 22 0#8
  delivery : ∀ (r : IqRecord) (rest : List IqRecord), s.ib.queue = r :: rest → r.payload.length ≤ 16 → r.filt ≤ 8 →
    s.ib.window =
      [r.tag, r.chan, BitVec.ofNat 8 r.payload.length, BitVec.ofBool r.broadcast ++ 1#1 ++ 0#2 ++ BitVec.ofNat 4 r.filt,
        r.stamp.extractLsb' 8 8, r.stamp.extractLsb' 0 8] ++ r.payload ++ List.replicate (16 - r.payload.length) 0#8
  time : bytes32 s.st.localTime =
    [s.st.localTime.extractLsb' 24 8, s.st.localTime.extractLsb' 16 8, s.st.localTime.extractLsb' 8 8,
      s.st.localTime.extractLsb' 0 8]
  keymap : (keymapBytes s.ks.downSet).length = 6 ∧ ∀ (n : Fin 6) (b : Fin 8) (k : Fin 48), k.val = 8 * n.val + b.val →
    ((byteAt (keymapBytes s.ks.downSet) n).getLsbD b.val = true ↔
      s.ks.keys[k].state = .down ∨ s.ks.keys[k].state = .long)

/-! ### Terms of the tick and of the scan -/

/-- The state whose stamp, link and journal the records of a tick meet (R2, R160): local time advanced, and the item in flight
returned if the watchdog expires in this tick. -/
def State.tickBase (s : State) : State :=
  { (if s.watchdogExpires then s.returnToSource else s) with st.localTime := s.st.localTime + 1 }

/-- The scan on its way through stage 2 as it reaches key `k` (R137): stage 1 done, the keys below `k` taken. -/
def Scanner.reachingReview (ks : Scanner) (raw : BitVec 48) (k : Fin 48) : Scanner :=
  (((List.finRange 48).filter (· < k)).foldl reviewKey (overKeys (releaseKey (ks.flips raw)) (ks.debounceAll raw, []))).1

/-- The scan on its way through stage 3 as it reaches key `k` (R137): stages 1 and 2 done, the keys below `k` taken. -/
def Scanner.reachingPress (ks : Scanner) (raw : BitVec 48) (k : Fin 48) : Scanner :=
  (((List.finRange 48).filter (· < k)).foldl (pressKey fun j => ks.flips raw j && !(ks.keyState j).pressed)
    (overKeys reviewKey (overKeys (releaseKey (ks.flips raw)) (ks.debounceAll raw, [])))).1

/-- The records that a scan makes about key `k`, in order. -/
def Scanner.eventsOf (ks : Scanner) (raw : BitVec 48) (k : Fin 48) : List Event :=
  (ks.scan raw ks.clock).2.filter fun e => e.subject == BitVec.ofNat 8 k.val

end Sys2Proof.Machine
end

