-- ==== Sys2Proof/WellFormed.lean ====
section
/-! DEFINITION. Which commands are well formed: the operands stay within what the row's event can bring, and a row that names
one kind of write or frame is not spelled by another row's operands. The meanings are total and do not rest on these checks. -/

namespace Sys2Proof

/-- The address lies within `count` addresses from `first`. -/
def addrIn (addr : Byte) (first count : Nat) : Bool := decide (first ≤ addr.toNat) && decide (addr.toNat < first + count)

/-- A write of `v` at `addr` by `m` has a row of its own, so that REGISTER_WRITE does not spell it. -/
def hasOwnRow (m : Master) (addr v : Byte) : Bool :=
  -- SOFT_RESTART
  (m == .host && addr == 0x05#8 && v == 1#8) ||
  -- REQUEST_RUN, REQUEST_DOZE, REQUEST_SLEEP
  (addr == 0x03#8 && decide (v.toNat ≤ 2)) ||
  -- GRANT, RECLAIM, RETURN, SEIZE; LOCK, UNLOCK
  addr == 0x06#8 || (m == .head && addr == 0x07#8) ||
  -- LOCALTIME_STAGE, LOCALTIME_COMMIT
  addrIn addr 0x0C 4 ||
  -- FLAG_CLEAR, REFUSED_CLEAR, BITMAP_CLEAR, JTAKE, IQTAKE
  (m == .host && (addrIn addr 0x10 2 || addrIn addr 0x14 2 || addr == 0x3F#8 || addr == 0x5A#8)) ||
  -- COUNTER_CLEAR
  addrIn addr 0x26 4 || addr == 0x42#8 || addrIn addr 0x6B 2 || addr == 0xBB#8 ||
  -- LINK_ENABLE, LINK_DISABLE
  addr == 0x20#8 ||
  -- LOAD, ARM, CANCEL; MAILBOX_STAGE
  (addr == 0x6A#8 && decide (1 ≤ v.toNat ∧ v.toNat ≤ 3)) || addrIn addr 0x6D 20 ||
  -- SCANNER_ENABLE, SCANNER_DISABLE; SENSE_ENABLE, SENSE_DISABLE
  addr == 0x90#8 || addrIn addr 0xA0 4 ||
  -- LGO_OFF to LGO_FOLLOW; LBIND_WRITE
  (addr == 0xBA#8 && decide (v.toNat ≤ 4)) || addr == 0xB2#8

/-- The command is well formed. -/
def Instr.wellFormed : Instr → Bool
  -- a frame holds at least the byte whose start bit began it (R24)
  | .frameCompletion rx => !rx.isEmpty
  -- the waking BEACON has WAKE set (R189)
  | .linkWakeRequest (.beacon flags _) => flags.getLsbD 1
  -- the body rules of R28
  | .rollcallBySerial _ newAddr => decide (newAddr.toNat ≤ 30)
  | .deliver _ _ payload | .broadcastDeliver _ _ payload => decide (payload.length ≤ 16)
  | .poke _ data => decide (1 ≤ data.length ∧ data.length ≤ 16)
  -- a satellite kind (Table 2-3), and a body that LEN allows (Table 2-1)
  | .clash kind body => decide (0x9 ≤ kind.toNat ∧ kind.toNat ≤ 0xD) && decide (body.length ≤ 48)
  -- STATUS and WAKE are admitted in every power state (R5)
  | .unassignedCommand b => b != 0xA8#8 && b != 0xAF#8
  | .registerWrite m addr v => !hasOwnRow m addr v
  | .powerOnReset _ | .pinReset _ | .softRestart | .remoteRestart | .msTick _ | .senseFlip _ _ | .silenceWatchdogExpiry _
  | .quietPeriodExpiry _ | .refreshElapse _ _ | .phaseEnd _ _ | .scanCompletion _ | .debouncedRelease _ _
  | .debouncedPress _ _ | .keyLong _ _ | .keyRepeat _ _ | .wakeScan _ | .sleepEntry | .oscillatorReady | .frameStart
  | .hunting | .linkWakeRequest .rollcall | .rollcall | .poll _ _ | .peek _ _ | .hush _ _ | .beacon _ _ | .replyStart
  | .replyEnd | .replyAbort | .replyCancel | .write | .read | .status | .statusStream _ | .wake | .ignoredByte _
  | .addressByte _ | .turnaround _ | .readData _ | .csnRise | .grant _ | .reclaim _ | .giveBack _ | .seize _ | .lock _
  | .unlock _ | .requestRun _ | .requestDoze _ | .requestSleep _ | .localtimeStage _ _ _ | .localtimeCommit _ _
  | .flagClear _ _ | .refusedClear _ | .bitmapClear _ _ | .counterClear _ _ _ | .linkEnable _ _ | .linkDisable _ _
  | .jtake _ | .iqtake _ | .load _ | .arm _ | .cancel _ | .mailboxStage _ _ _ | .scannerEnable _ _ | .scannerDisable _ _
  | .senseEnable _ _ _ | .senseDisable _ _ _ | .lgoOff _ | .lgoOn _ | .lgoBlink _ | .lgoPulse _ | .lgoFollow _
  | .lbindWrite _ _ | .resetHeldLow | .supplyBelowRange | .csnFall | .byteWhileAwaitingIdle _ => true

end Sys2Proof
end

