-- ==== Sys2Proof/Certificates/Slice0/Obligations.lean ====
section
/-! DEFINITION. What is claimed of the S48, from the numbered rules of the manual: one statement for each group of commands, the
invariants that every step keeps, and the machine around them. -/

open Sys2Proof Sys2Proof.Machine

/-! ### The machine: queue, reset lines, resets -/

/-- R1: a step runs the command at the front of the queue on the state with the queue's rest; with none waiting the part idles
(the queue is the model's: log 1). -/
def Obligations.StepRunsFrontCommand : Prop :=
  (∀ (c : Instr) (rest : List Instr) (s : State),
    s.pending = c :: rest → step s = exec c { s with pending := rest }) ∧
  ∀ s : State, s.pending = [] → step s = .next s

/-- Every command answers a next state in every state (the model's: a command whose event cannot fall due has no effect, log
12), and none changes the queue (the model's: log 1) or the serial number (R13); only a power-on or pin reset changes the
sampled straps (R191). -/
def Obligations.CommandsKeepIdentity : Prop :=
  ∀ (c : Instr) (s : State), ∃ t : State, exec c s = .next t ∧ t.serial = s.serial ∧ t.pending = s.pending ∧
    (t.pr.straps = s.pr.straps ∨ c = .powerOnReset t.pr.straps ∨ c = .pinReset t.pr.straps)

/-- R191: while the part is held in reset a command changes nothing but the level of the pin or supply that it is about, until
the reset step of a command that ends the hold. RESETN going low, or the supply leaving its range, changes that level alone, and
from then on SDO, IRQN, LINKDE, every lamp output and every drive line are released, and LINKTX is high. -/
def Obligations.HeldPart : Prop :=
  (∀ (c : Instr) (s : State), s.held = true →
     match c with
     | .resetHeldLow => exec c s = .next { s with pins.resetnLow := true }
     | .supplyBelowRange => exec c s = .next { s with pins.supplyLow := true }
     | .csnRise => exec c s = .next { s with pins.csnLow := false }
     | .csnFall => exec c s = .next { s with pins.csnLow := true }
     | .powerOnReset _ => s.pins.resetnLow = true → exec c s = .next { s with pins.supplyLow := false }
     | .pinReset _ => s.pins.supplyLow = true → exec c s = .next { s with pins.resetnLow := false }
     | _ => exec c s = .next s) ∧
  (∀ s : State,
     exec .resetHeldLow s = .next { s with pins.resetnLow := true } ∧
     exec .supplyBelowRange s = .next { s with pins.supplyLow := true } ∧
     ∀ t : State, (t = { s with pins.resetnLow := true } ∨ t = { s with pins.supplyLow := true }) →
       t.held = true ∧ t.sdo = none ∧ t.irqAsserted = false ∧ t.linkDe = false ∧ (∀ n, t.linkTx n = true) ∧
       (∀ n, t.lampDuty n = 0) ∧ ∀ d, t.driveInUse d = false)

/-- R191, R193, R194: the reset step that ends the hold samples the straps and leaves the power-on column of Table 11-1. R11,
R64, R192, R193: a local write of 0x01 to RESTART by the owner of SYS, and the remote restart at the end of its RECEIPT's
transmission or with no reply left, leave the soft-restart column. The other pins, the serial number and the queue stay. R2,
R64: a remote restart whose reply has ended comes before every other event, but for a reset. -/
def Obligations.Resets : Prop :=
  (∀ (p : Straps) (s : State),
     (s.pins.resetnLow = false → ∃ t : State, exec (.powerOnReset p) s = .next t ∧ t.PowerOnTable p ∧
       t.pins = { s.pins with supplyLow := false } ∧ t.serial = s.serial ∧ t.pending = s.pending) ∧
     (s.pins.supplyLow = false → ∃ t : State, exec (.pinReset p) s = .next t ∧ t.PowerOnTable p ∧
       t.pins = { s.pins with resetnLow := false } ∧ t.serial = s.serial ∧ t.pending = s.pending)) ∧
  (∀ s : State,
     (s.byteReady .writeData → s.hp.pointer = 0x05#8 → s.owns .host .sys →
       ∃ t : State, exec .softRestart s = .next t ∧ s.SoftRestartTable t ∧ t.pins = s.pins ∧ t.serial = s.serial ∧
         t.pending = s.pending) ∧
     (s.held = false → s.own.restartPending = true → (s.link.tx = .idle ∨ (s.Ready ∧ ∃ r, s.link.tx = .transmitting r)) →
       ∃ t : State, exec .remoteRestart s = .next t ∧ s.SoftRestartTable t ∧ t.pins = s.pins ∧ t.serial = s.serial ∧
         t.pending = s.pending)) ∧
  (∀ (c : Instr) (s t : State), s.held = false → s.own.restartPending = true → s.link.tx = .idle →
     exec .remoteRestart s = .next t → ofReset c = false → exec c s = exec c t)

/-! ### Time: the ms tick and what falls due in it -/

/-- R2, R45, R48, R97, R134, R152, R156, R170: the ms tick in RUN, DOZE and SETTLING, position by position, in a tick in which
neither the watchdog nor the quiet-period timer expires: each refresh and lamp timer that runs on loses 1, the scan clock is
counted or held at 0, and each enabled input is primed, or has its debounce counter moved on or set back. R154, R156, R188 to
R190: in SLEEP and WAKING the tick advances local time and the scan clock alone, but for a sense input that asks for a wake,
which moves the part from SLEEP to WAKING. -/
def Obligations.Tick : Prop :=
  (∀ (sns : BitVec 4) (s : State), s.Ready → s.awake = true → s.watchdogExpires = false → s.quietExpires = false →
     ∃ t : State, exec (.msTick sns) s = .next t.endOfStep ∧
       t = { s with
         st := { (s.st.sampleAll sns) with localTime := s.st.localTime + 1 }
         link.watchdog :=
           if s.watchdogRuns then (if s.link.silence = 0#8 then 0 else s.link.watchdog + 1) else s.link.watchdog
         link.quiet :=
           match s.link.quiet with
           | .left ms => if s.link.state = LinkState.hushed then .left (ms - 1) else .left ms
           | q => q
         ob.boxes := tabulate fun i => s.ob.boxes[i].tick
         lm := s.lm.tick
         ks := s.ks.tick s.pr.state
         jr := (s.tickBase.recordAll (s.lm.tickEvents ++ s.st.sampleEvents sns)).jr
         ia.flags0 := if ∃ i : Fin 6, s.ob.boxes[i].stale = true then s.ia.flags0 ||| mbStaleFlag else s.ia.flags0
         ia.flags1 := (s.tickBase.recordAll (s.lm.tickEvents ++ s.st.sampleEvents sns)).ia.flags1 } ∧
       (∀ i : Fin 6,
         (s.ob.boxes[i].running = false → t.ob.boxes[i] = s.ob.boxes[i]) ∧
         (s.ob.boxes[i].running = true → 2 ≤ s.ob.boxes[i].remaining →
           t.ob.boxes[i] = { s.ob.boxes[i] with remaining := s.ob.boxes[i].remaining - 1 })) ∧
       (∀ n : Fin 12,
         match s.lm.lamps[n].phase with
         | .off | .on | .followLit | .followDark => t.lm.lamps[n] = s.lm.lamps[n]
         | .blinkLit | .blinkDark | .pulseWait | .pulseLit => 2 ≤ s.lm.lamps[n].remaining →
           t.lm.lamps[n] = { s.lm.lamps[n] with remaining := s.lm.lamps[n].remaining - 1 }) ∧
       t.lm.ldeny = s.lm.ldeny ∧ t.lm.down = s.lm.down ∧
       (s.ks.en = true →
         let count := min 64 (s.ks.clock + 1)
         let interval := if s.pr.state = .doze then s.ks.period.toNat * 4 else s.ks.period.toNat
         t.ks = { s.ks with clock := count, due := decide (interval ≤ count) }) ∧
       (s.ks.en = false → t.ks = { s.ks with clock := 0, due := false }) ∧
       ∀ n : Fin 4,
         let i := s.st.inputs[n]
         let raw := sns.getLsbD n.val
         (i.en = false → t.st.inputs[n] = i) ∧
         (i.en = true → i.primed = false → t.st.inputs[n] = { i with primed := true, level := raw, counter := 0 }) ∧
         (i.en = true → i.primed = true → raw = i.level → t.st.inputs[n] = { i with counter := 0 }) ∧
         (i.en = true → i.primed = true → raw ≠ i.level →
           (i.counter + 1 < i.debounce.toNat → t.st.inputs[n] = { i with counter := i.counter + 1 }) ∧
           (i.debounce.toNat ≤ i.counter + 1 → t.st.inputs[n] = { i with level := raw, counter := 0 }))) ∧
  (∀ (sns : BitVec 4) (s : State), s.Ready →
     (s.pr.state = .waking →
       exec (.msTick sns) s = .next { s with
         st.localTime := s.st.localTime + 1, pr.wakeTicks := s.pr.wakeTicks + 1, ks.clock := 0, ks.due := false }) ∧
     (s.pr.state = .sleep →
       ((∀ n : Fin 4, s.st.inputs[n].asksWake (sns.getLsbD n.val) = false) →
         exec (.msTick sns) s = .next { s with st.localTime := s.st.localTime + 1, ks := s.ks.tick .sleep }) ∧
       (∀ n : Fin 4, s.st.inputs[n].asksWake (sns.getLsbD n.val) = true →
         (∀ k : Fin 4, k < n → s.st.inputs[k].asksWake (sns.getLsbD k.val) = false) →
         exec (.msTick sns) s = .next { s with
           st.localTime := s.st.localTime + 1, ks.clock := 0, ks.due := false
           pr := { s.pr with state := .waking, request := some (.sense, BitVec.ofNat 8 n.val), wakeTicks := 0 } }) ∧
       (s.ks.en = true → s.ks.sleepWake = true →
         let count := min 64 (s.ks.clock + 1)
         s.ks.tick .sleep = { s.ks with clock := count, due := decide (s.ks.period.toNat * 4 ≤ count) }) ∧
       ((s.ks.en = false ∨ s.ks.sleepWake = false) → s.ks.tick .sleep = { s.ks with clock := 0, due := false })))

/-- The rows that name what comes about in a tick or a scan stand for that whole tick or scan, and have no effect in a state in
which it does not come about, where no other step is due before them (the model's choice: logs 12 and 13). -/
def Obligations.SubRowsAreTheirTickOrScan : Prop :=
  ∀ (s : State) (sns : BitVec 4) (keys : BitVec 48), s.restartWaits = false → s.oscillatorDue = false →
   (s.scanWaits = false →
    (∀ n, exec (.senseFlip n sns) s = if s.senseFlips n sns then exec (.msTick sns) s else .next s) ∧
    (exec (.silenceWatchdogExpiry sns) s = if s.watchdogExpires then exec (.msTick sns) s else .next s) ∧
    (exec (.quietPeriodExpiry sns) s = if s.quietEnds then exec (.msTick sns) s else .next s) ∧
    (∀ i, exec (.refreshElapse i sns) s = if s.refreshElapses i then exec (.msTick sns) s else .next s) ∧
    (∀ n, exec (.phaseEnd n sns) s = if s.phaseEnds n then exec (.msTick sns) s else .next s)) ∧
    (∀ k, exec (.debouncedRelease k keys) s = if s.releases k keys then exec (.scanCompletion keys) s else .next s) ∧
    (∀ k, exec (.debouncedPress k keys) s = if s.presses k keys then exec (.scanCompletion keys) s else .next s) ∧
    (∀ k, exec (.keyLong k keys) s = if s.becomesLong k keys then exec (.scanCompletion keys) s else .next s) ∧
    (∀ k, exec (.keyRepeat k keys) s = if s.repeats k keys then exec (.scanCompletion keys) s else .next s) ∧
    (exec (.wakeScan keys) s = if s.wakeScanDue then exec (.scanCompletion keys) s else .next s)

/-- R152, R153: at the DEBOUNCE-th sample in a row that differs, a primed input takes the raw level with its counter at 0, and
hands a SENSE_RISE or SENSE_FALL to the journal if EDGE selects the flip. -/
def Obligations.SenseFlip : Prop :=
  ∀ (n : Fin 4) (sns : BitVec 4) (s : State), s.Ready → s.awake = true →
    s.st.inputs[n].en = true → s.st.inputs[n].primed = true → sns.getLsbD n.val ≠ s.st.inputs[n].level →
    s.st.inputs[n].debounce.toNat ≤ s.st.inputs[n].counter + 1 →
    ∃ t : State, exec (.senseFlip n sns) s = .next t.endOfStep ∧
      t.st.inputs[n] = { s.st.inputs[n] with level := sns.getLsbD n.val, counter := 0 } ∧
      t.jr = (s.tickBase.recordAll (s.lm.tickEvents ++ s.st.sampleEvents sns)).jr ∧
      s.st.inputs[n].sampleEvents n (sns.getLsbD n.val) =
        (match s.st.inputs[n].edge, sns.getLsbD n.val with
        | .rise, true | .both, true => [{ kind := .senseRise, subject := BitVec.ofNat 8 n.val, detail := 0 }]
        | .fall, false | .both, false => [{ kind := .senseFall, subject := BitVec.ofNat 8 n.val, detail := 0 }]
        | .rise, false | .fall, true => [])

/-- R48, R107: the tick in which the silence watchdog expires: return-to-source, LISTEN, the timers stopped, RLOCK 0, LOSTHEAD
and LINKCHG set; no turn reset, and the rest of the tick follows. -/
def Obligations.WatchdogExpiry : Prop :=
  ∀ (sns : BitVec 4) (s : State), s.Ready → s.awake = true →
    (s.link.state = .joined ∨ s.link.state = .hushed) → s.link.silence ≠ 0#8 →
    s.link.silence.toNat * 20 ≤ s.link.watchdog + 1 →
    ∃ t : State, exec (.silenceWatchdogExpiry sns) s = .next t.endOfStep ∧
      t = { s with
        st := { (s.st.sampleAll sns) with localTime := s.st.localTime + 1 }
        link := { s.link with state := .listen, watchdog := 0, quiet := .stopped }
        own.rlock := 0
        ob := { s.returnToSource.ob with boxes := tabulate fun i => s.returnToSource.ob.boxes[i].tick }
        lm := s.lm.tick
        ks := s.ks.tick s.pr.state
        jr := (s.tickBase.recordAll (s.lm.tickEvents ++ s.st.sampleEvents sns)).jr
        ia.flags0 :=
          (s.ia.flags0 ||| (lostHead ||| linkChg)) |||
            if ∃ i : Fin 6, s.returnToSource.ob.boxes[i].stale = true then mbStaleFlag else 0#8
        ia.flags1 := (s.tickBase.recordAll (s.lm.tickEvents ++ s.st.sampleEvents sns)).ia.flags1 }

/-- R97, R99: when mailbox `i`'s refresh elapses, EMPTY becomes READY, and READY or OFFERED is counted stale with MBSTALE set;
the timer is reloaded with the committed period, or stopped where that is 0. -/
def Obligations.RefreshElapse : Prop :=
  ∀ (i : Fin 6) (sns : BitVec 4) (s : State), s.Ready → s.awake = true → s.watchdogExpires = false →
    s.ob.boxes[i].running = true → s.ob.boxes[i].remaining ≤ 1 →
    ∃ t : State, exec (.refreshElapse i sns) s = .next t.endOfStep ∧
      (s.ob.boxes[i].state = .empty → t.ob.boxes[i].state = .ready ∧ t.ob.boxes[i].stales = s.ob.boxes[i].stales) ∧
      (s.ob.boxes[i].state ≠ .empty → t.ob.boxes[i].state = s.ob.boxes[i].state ∧
        t.ob.boxes[i].stales = counted s.ob.boxes[i].stales ∧ t.ia.flags0 &&& mbStaleFlag = mbStaleFlag) ∧
      (s.ob.boxes[i].mail.period ≠ 0#16 → t.ob.boxes[i].running = true ∧
        t.ob.boxes[i].remaining = s.ob.boxes[i].mail.period.toNat * 10) ∧
      (s.ob.boxes[i].mail.period = 0#16 → t.ob.boxes[i].running = false) ∧
      t.ob.boxes[i].mail = s.ob.boxes[i].mail ∧ t.ob.boxes[i].cancelPending = s.ob.boxes[i].cancelPending ∧
      t.ob.boxes[i].drops = s.ob.boxes[i].drops ∧ t.ob.inFlight = s.ob.inFlight ∧ t.ob.nextTurn = s.ob.nextTurn

/-- R170, R171, R173: at the end of a timed phase the lamp moves on as R171's table says; a blink count that runs out and a
pulse that ends hand a LAMP_END to the journal. -/
def Obligations.PhaseEnd : Prop :=
  ∀ (n : Fin 12) (sns : BitVec 4) (s : State), s.Ready → s.awake = true →
    s.lm.lamps[n].phase.timed = true → s.lm.lamps[n].remaining ≤ 1 →
    ∃ t : State, exec (.phaseEnd n sns) s = .next t.endOfStep ∧
      t.jr = (s.tickBase.recordAll (s.lm.tickEvents ++ s.st.sampleEvents sns)).jr ∧
      t.lm.ldeny = s.lm.ldeny ∧ t.lm.down = s.lm.down ∧
      match s.lm.lamps[n].phase with
      | .blinkLit =>
        if s.lm.lamps[n].count = 1 then
          t.lm.lamps[n] = { s.lm.lamps[n] with phase := .off, level := 0, remaining := 0, count := 0 } ∧
            s.lm.lamps[n].endEvents n = [{ kind := .lampEnd, subject := BitVec.ofNat 8 n.val, detail := 0 }]
        else
          t.lm.lamps[n] = { s.lm.lamps[n] with
            phase := .blinkDark, remaining := s.lm.lamps[n].loff.toNat * 10, count := s.lm.lamps[n].count - 1 } ∧
            s.lm.lamps[n].endEvents n = []
      | .blinkDark =>
        t.lm.lamps[n] = { s.lm.lamps[n] with phase := .blinkLit, remaining := s.lm.lamps[n].lon.toNat * 10 } ∧
          s.lm.lamps[n].endEvents n = []
      | .pulseWait =>
        t.lm.lamps[n] = { s.lm.lamps[n] with phase := .pulseLit, remaining := s.lm.lamps[n].lwidth.toNat * 10 } ∧
          s.lm.lamps[n].endEvents n = []
      | .pulseLit =>
        t.lm.lamps[n] = { s.lm.lamps[n] with phase := .off, level := 0, remaining := 0 } ∧
          s.lm.lamps[n].endEvents n = [{ kind := .lampEnd, subject := BitVec.ofNat 8 n.val, detail := 1 }]
      | .off | .on | .followLit | .followDark => False

/-! ### The key scanner -/

/-- R134, R137, R144, R172: a scan completion in RUN, DOZE and SETTLING takes the scanner through its stages with the scan
clock's count as its length, hands its records to the journal in order and the keys in DOWN or LONG to the lamp engine; nothing
else changes but the model's record of the switches (log 18). R2: a scan completion that is due comes before every later event,
with the switches as the last scan found them where its own command does not give them (the model's: log 18). -/
def Obligations.ScanCompletion : Prop :=
  (∀ (keys : BitVec 48) (s : State), s.ScanReady → s.awake = true →
    ∃ t : State, exec (.scanCompletion keys) s = .next t.endOfStep ∧
      t = { s with
        pins.switches := keys
        ks := { (s.ks.scan keys s.ks.clock).1 with clock := 0, due := false }
        jr := (s.recordAll (s.ks.scan keys s.ks.clock).2).jr
        ia.flags1 := (s.recordAll (s.ks.scan keys s.ks.clock).2).ia.flags1
        lm := s.lm.takeDown (s.ks.scan keys s.ks.clock).1.downSet } ∧
      (∀ k : Fin 48, t.lm.down.getLsbD k.val = (t.ks.keyState k).isCounted) ∧
      (∀ n : Fin 12, t.lm.lamps[n] = if s.lm.lamps[n].phase.following
        then { s.lm.lamps[n] with phase := if t.lm.down.getLsbD s.lm.lamps[n].bind.toNat then .followLit else .followDark }
        else s.lm.lamps[n]) ∧
      t.ks = { s.ks with keys := t.ks.keys, clock := 0, due := false }) ∧
  ∀ (c : Instr) (s t : State), s.ScanReady → s.pr.state ≠ .waking → exec (.scanCompletion s.pins.switches) s = .next t →
    ofReset c = false → ofScan c = false → c ≠ .oscillatorReady → exec c s = exec c t

/-- R135, R138: a key that has read released for DEBOUNCE scans in a row returns to UP with its times 0, and reports KEY_UP with
detail 0 if it was DOWN, 1 if it was LONG, and nothing if it was BLOCKED or SUSPECT. -/
def Obligations.DebouncedRelease : Prop :=
  ∀ (k : Fin 48) (keys : BitVec 48) (s : State), s.ScanReady → s.awake = true →
    s.ks.used k = true → keys.getLsbD k.val = false → s.ks.keys[k].state ≠ .up →
    s.ks.debounce.toNat ≤ s.ks.keys[k].deb + 1 →
    ∃ t : State, exec (.debouncedRelease k keys) s = .next t.endOfStep ∧
      t.ks.keys[k] = { state := .up, deb := 0, hold := 0, rept := 0, ordinal := 0 } ∧
      t.jr = (s.recordAll (s.ks.scan keys s.ks.clock).2).jr ∧
      s.ks.eventsOf keys k =
        match s.ks.keys[k].state with
        | .down => [{ kind := .keyUp, subject := BitVec.ofNat 8 k.val, detail := 0 }]
        | .long => [{ kind := .keyUp, subject := BitVec.ofNat 8 k.val, detail := 1 }]
        | .up | .blocked | .suspect => []

/-- R135, R139, R141: a key that has read pressed for DEBOUNCE scans in a row leaves UP: SUSPECT with a GHOST record if it
completes a rectangle with three keys in DOWN, LONG or BLOCKED, else BLOCKED if four keys are counted, else DOWN with a KEY_DOWN
record; each test against the states that the scan has left when it reaches the key in stage 3. R140: a SUSPECT or BLOCKED key
that is not released in this scan is judged against the states that the scan has left when it reaches the key in stage 2. R135:
a key that stays UP has its debounce counter set to 0 by a released reading and raised by a pressed one. -/
def Obligations.PressesAndWaitingKeys : Prop :=
  let corner (x : Scanner) (j : Fin 48) : Prop :=
    x.keys[j].state = .down ∨ x.keys[j].state = .long ∨ x.keys[j].state = .blocked
  let rectangle (x : Scanner) (k : Fin 48) : Prop := ∃ a b c : Fin 48,
    a.val / 6 = k.val / 6 ∧ a.val % 6 ≠ k.val % 6 ∧ b.val % 6 = k.val % 6 ∧ b.val / 6 ≠ k.val / 6 ∧
      c.val / 6 = b.val / 6 ∧ c.val % 6 = a.val % 6 ∧ corner x a ∧ corner x b ∧ corner x c
  let counted (x : Scanner) : Nat :=
    ((List.finRange 48).filter fun j => x.keys[j].state = .down ∨ x.keys[j].state = .long).length
  (∀ (k : Fin 48) (keys : BitVec 48) (s : State), s.ScanReady → s.awake = true →
     s.ks.used k = true → keys.getLsbD k.val = true → s.ks.keys[k].state = .up →
     s.ks.debounce.toNat ≤ s.ks.keys[k].deb + 1 →
     let x := s.ks.reachingPress keys k
     ∃ t : State, exec (.debouncedPress k keys) s = .next t.endOfStep ∧
       t.jr = (s.recordAll (s.ks.scan keys s.ks.clock).2).jr ∧
       (rectangle x k →
         t.ks.keys[k] = { state := .suspect, deb := 0, hold := 0, rept := 0, ordinal := 0 } ∧
           s.ks.eventsOf keys k = [{ kind := .ghost, subject := BitVec.ofNat 8 k.val, detail := 0 }]) ∧
       (¬rectangle x k → counted x < 4 →
         t.ks.keys[k] = { state := .down, deb := 0, hold := 0, rept := 0, ordinal := 0 } ∧
           s.ks.eventsOf keys k = [{ kind := .keyDown, subject := BitVec.ofNat 8 k.val, detail := 0 }]) ∧
       (¬rectangle x k → 4 ≤ counted x →
         t.ks.keys[k] = { state := .blocked, deb := 0, hold := 0, rept := 0, ordinal := 0 } ∧
           s.ks.eventsOf keys k = [])) ∧
  (∀ (k : Fin 48) (keys : BitVec 48) (s : State), s.ScanReady → s.awake = true →
     (s.ks.keys[k].state = .suspect ∨ s.ks.keys[k].state = .blocked) → s.ks.flips keys k = false →
     let x := s.ks.reachingReview keys k
     let deb : Nat :=
       if s.ks.used k then (if keys.getLsbD k.val then 0 else s.ks.keys[k].deb + 1) else s.ks.keys[k].deb
     ∃ t : State, exec (.scanCompletion keys) s = .next t.endOfStep ∧
       t.jr = (s.recordAll (s.ks.scan keys s.ks.clock).2).jr ∧
       (rectangle x k → t.ks.keys[k] = { s.ks.keys[k] with deb := deb } ∧ s.ks.eventsOf keys k = []) ∧
       (¬rectangle x k → counted x < 4 →
         t.ks.keys[k] = { state := .down, deb := deb, hold := 0, rept := 0, ordinal := 0 } ∧
           s.ks.eventsOf keys k = [{ kind := .keyDown, subject := BitVec.ofNat 8 k.val, detail := 0 }]) ∧
       (¬rectangle x k → 4 ≤ counted x →
         t.ks.keys[k] = { state := .blocked, deb := deb, hold := 0, rept := 0, ordinal := 0 } ∧
           s.ks.eventsOf keys k = [])) ∧
  (∀ (k : Fin 48) (keys : BitVec 48) (s : State), s.ScanReady → s.awake = true →
     s.ks.keys[k].state = .up → s.ks.used k = true →
     (keys.getLsbD k.val = true → s.ks.keys[k].deb + 1 < s.ks.debounce.toNat) →
     ∃ t : State, exec (.scanCompletion keys) s = .next t.endOfStep ∧ s.ks.eventsOf keys k = [] ∧
       t.ks.keys[k] = { s.ks.keys[k] with deb := if keys.getLsbD k.val then s.ks.keys[k].deb + 1 else 0 })

/-- R142, R143: a DOWN key whose hold time reaches LONGTIME becomes LONG with a KEY_LONG record; a LONG key whose repeat time
reaches REPEAT makes a KEY_REPEAT with the next ordinal, and keeps the remainder of its repeat time; else their times grow by
the length of the scan, up to 65535, without a record. R135: a pressed reading sets their debounce counter to 0, and a released
one raises it. -/
def Obligations.KeyLongAndRepeat : Prop :=
  ∀ (k : Fin 48) (keys : BitVec 48) (s : State), s.ScanReady → s.awake = true →
    s.ks.flips keys k = false →
    let deb : Nat :=
      if s.ks.used k then (if keys.getLsbD k.val then 0 else s.ks.keys[k].deb + 1) else s.ks.keys[k].deb
    let hold := min 65535 (s.ks.keys[k].hold + s.ks.clock)
    let rept := min 65535 (s.ks.keys[k].rept + s.ks.clock)
    (s.ks.keys[k].state = .down → s.ks.longTime ≠ 0#8 → s.ks.longTime.toNat * 20 ≤ hold →
      ∃ t : State, exec (.keyLong k keys) s = .next t.endOfStep ∧
        t.ks.keys[k] = { state := .long, deb := deb, hold := hold, rept := 0, ordinal := 0 } ∧
        t.jr = (s.recordAll (s.ks.scan keys s.ks.clock).2).jr ∧
        s.ks.eventsOf keys k = [{ kind := .keyLong, subject := BitVec.ofNat 8 k.val, detail := 0 }]) ∧
    (s.ks.keys[k].state = .down → (s.ks.longTime = 0#8 ∨ hold < s.ks.longTime.toNat * 20) →
      ∃ t : State, exec (.scanCompletion keys) s = .next t.endOfStep ∧ s.ks.eventsOf keys k = [] ∧
        t.ks.keys[k] = { s.ks.keys[k] with deb := deb, hold := hold }) ∧
    (s.ks.keys[k].state = .long → s.ks.rept ≠ 0#8 → s.ks.rept.toNat * 20 ≤ rept →
      ∃ t : State, exec (.keyRepeat k keys) s = .next t.endOfStep ∧
        t.ks.keys[k] = {
          state := .long, deb := deb, hold := hold, rept := rept % (s.ks.rept.toNat * 20)
          ordinal := counted s.ks.keys[k].ordinal } ∧
        t.jr = (s.recordAll (s.ks.scan keys s.ks.clock).2).jr ∧
        s.ks.eventsOf keys k =
          [{ kind := .keyRepeat, subject := BitVec.ofNat 8 k.val, detail := counted s.ks.keys[k].ordinal }]) ∧
    (s.ks.keys[k].state = .long → (s.ks.rept = 0#8 ∨ rept < s.ks.rept.toNat * 20) →
      ∃ t : State, exec (.scanCompletion keys) s = .next t.endOfStep ∧ s.ks.eventsOf keys k = [] ∧
        t.ks.keys[k] = { s.ks.keys[k] with deb := deb, hold := hold, rept := rept })

/-! ### Sleep and wake -/

/-- R146, R189: a wake scan requests a wake with the lowest used key that reads pressed, and does nothing else but restart the
scan clock (and, in the model, keep the switches as read: log 18). R188 to R190: a completed frame in SLEEP requests a wake if
it passes the tests of R27 and is a plain ROLLCALL to the own address in LISTEN, JOINED or HUSHED, or a BEACON with WAKE set;
every other frame, and in WAKING every frame, is ignored entirely. -/
def Obligations.WakeRequests : Prop :=
  (∀ (keys : BitVec 48) (s : State), s.ScanReady → s.pr.state = .sleep →
     (∀ k : Fin 48, s.ks.used k = true → keys.getLsbD k.val = true →
       (∀ j : Fin 48, j < k → s.ks.used j = true → keys.getLsbD j.val = false) →
       exec (.wakeScan keys) s = .next { s with
         pins.switches := keys, ks.clock := 0, ks.due := false
         pr := { s.pr with state := .waking, request := some (.key, BitVec.ofNat 8 k.val), wakeTicks := 0 } }) ∧
     ((∀ k : Fin 48, s.ks.used k = true → keys.getLsbD k.val = false) →
       exec (.wakeScan keys) s = .next { s with pins.switches := keys, ks.clock := 0, ks.due := false })) ∧
  (∀ s : State, s.frameReady →
     (s.pr.state = .sleep →
       (s.addressed → (s.link.state = .listen ∨ s.link.state = .joined ∨ s.link.state = .hushed) →
         exec (.linkWakeRequest .rollcall) s = .next { s with
           link.rx := Receiver.completed, ks.clock := 0, ks.due := false
           pr := { s.pr with state := .waking, request := some (.link, 0), wakeTicks := 0 } }) ∧
       (s.link.state = .clashed →
         exec (.linkWakeRequest .rollcall) s = .next { s with link.rx := Receiver.completed }) ∧
       (∀ flags time, exec (.linkWakeRequest (.beacon flags time)) s =
         if flags.getLsbD 1 then
           .next { s with
             link.rx := Receiver.completed, ks.clock := 0, ks.due := false
             pr := { s.pr with state := .waking, request := some (.link, 0), wakeTicks := 0 } }
         else .next { s with link.rx := Receiver.completed }) ∧
       (∀ rx : List RxByte,
         let wakes : Prop := ∃ f : Frame, classify s.link.addr (rx.foldl Receiver.receive Receiver.start) = .valid f ∧
           ((f.kind = .rollcall ∧ f.body = [] ∧
               (s.link.state = .listen ∨ s.link.state = .joined ∨ s.link.state = .hushed)) ∨
             (f.kind = .beacon ∧ (byteAt f.body 0).getLsbD 1 = true))
         (wakes → exec (.frameCompletion rx) s = .next { s with
           link.rx := Receiver.completed, ks.clock := 0, ks.due := false
           pr := { s.pr with state := .waking, request := some (.link, 0), wakeTicks := 0 } }) ∧
         (¬wakes → exec (.frameCompletion rx) s = .next { s with link.rx := Receiver.completed }))) ∧
     (s.pr.state = .waking → ∀ rx, exec (.frameCompletion rx) s = .next { s with link.rx := Receiver.completed }))

/-- R145, R175, R187: entry into SLEEP happens exactly at the end of a step in SETTLING with no frame being received, the
transmitter idle and CSN high. It makes the forced release of an enabled scanner, one KEY_UP with detail 2 for each key in DOWN
or LONG; every lamp output is released, and everything else keeps its value. Two things are the model's (DESIGN CHOICE): a
scan that falls due at the tick of the entry is dropped, with SLEEPWAKE 1 too (log 7), and the step that abandons or cancels a
restart's RECEIPT makes the entry as any other step does (log 21). -/
def Obligations.SleepEntry : Prop :=
  ∀ s : State,
    (s.Ready → exec .sleepEntry s = .next s.endOfStep) ∧
    (¬(s.pr.state = .settling ∧ s.link.rx.cond ≠ .receiving ∧ s.link.tx = .idle ∧ s.pins.csnLow = false) →
      s.endOfStep = s) ∧
    (s.pr.state = .settling → s.link.rx.cond ≠ .receiving → s.link.tx = .idle → s.pins.csnLow = false →
      (∀ n, s.endOfStep.lampDuty n = 0) ∧
      (s.ks.en = false → s.endOfStep = { s with pr.state := .sleep }) ∧
      (s.ks.en = true →
        s.endOfStep = { s with
          pr.state := .sleep
          ks := { s.ks with keys := Vector.replicate 48 Key.up, clock := 0, due := false }
          jr := (s.recordAll s.ks.forcedEvents).jr
          ia.flags1 := (s.recordAll s.ks.forcedEvents).ia.flags1
          lm := s.lm.takeDown 0#48 } ∧
        s.ks.forcedEvents = ((List.finRange 48).filter fun k => (s.ks.keyState k).isCounted).map
          fun k => { kind := .keyUp, subject := BitVec.ofNat 8 k.val, detail := 2 }))

/-- R190: the oscillator-ready event, due from the second tick in WAKING: RUN with POWER 0, the wake recorded in POWERSTAT and
as a WOKE record, WOKE set, the watchdog and the scan clock at 0. R2: once due, it comes before every later event. -/
def Obligations.OscillatorReady : Prop :=
  (∀ (s : State) (c : WakeCause) (d : Byte), s.held = false → s.restartWaits = false → s.pr.state = .waking →
    2 ≤ s.pr.wakeTicks → s.pr.request = some (c, d) →
    exec .oscillatorReady s = .next { s with
      pr := { s.pr with state := .run, power := 0, cause := c, woken := true, request := none, wakeTicks := 0 }
      link.watchdog := 0
      ks.clock := 0
      ks.due := false
      jr := (s.record { kind := .woke, subject := c.code, detail := d }).jr
      ia.flags1 := (s.record { kind := .woke, subject := c.code, detail := d }).ia.flags1 ||| wokeFlag }) ∧
  ∀ (c : Instr) (s t : State), s.held = false → s.restartWaits = false → s.pr.state = .waking → 2 ≤ s.pr.wakeTicks →
    exec .oscillatorReady s = .next t → ofReset c = false → exec c s = exec c t

/-! ### The line, the receiver and the transmitter -/

/-- R24, R37: a frame start while hunting begins a frame and cancels a pending reply, in the frame start's own step (DEDUCED:
log 11); the receiver hunts once the idle measure has reached 4 byte times (its recorded value: log 14); a byte that begins
while it awaits idle is discarded, and cancels a pending reply too. That this step ends with the sleep-entry test also where
the reply was a restart's RECEIPT is the model's (DESIGN CHOICE: log 21). -/
def Obligations.ReceiverConditions : Prop :=
  ∀ (b : Byte) (s : State), s.Ready → s.linkOn = true → (∀ r, s.link.tx ≠ .transmitting r) →
    (s.link.rx.cond = .hunting →
      (s.link.tx = .idle → exec .frameStart s = .next { s with link.rx := Receiver.start }) ∧
      (s.link.tx ≠ .idle → exec .frameStart s = .next { s with
        link.rx := Receiver.start, link.tx := .idle, link.collide := counted s.link.collide
        ia.flags0 := s.ia.flags0 ||| rxErr })) ∧
    (s.link.rx.cond = .awaitingIdle →
      exec .hunting s = .next { s with
        link.rx := { cond := .hunting, idle := 4, bytes := [], oversize := false, fault := false } } ∧
      (s.link.tx = .idle → exec (.byteWhileAwaitingIdle b) s = .next { s with link.rx := Receiver.awaiting }) ∧
      (s.link.tx ≠ .idle → exec (.byteWhileAwaitingIdle b) s = .next (State.endOfStep { s with
        link.rx := Receiver.awaiting, link.tx := .idle, link.collide := counted s.link.collide
        ia.flags0 := s.ia.flags0 ||| rxErr })))

/-- R35, R36, R37, R40: a pending reply starts; the end of its transmission changes the transmitter and the idle measure alone,
but is the step of a pending restart; a mismatching echo abandons it, and a start bit cancels it while pending, with COLLIDE
counted and RXERR set, and every consequence of the request stands. R23: LINKDE is asserted and LINKTX carries the reply's bytes
while it is transmitted, back to back, each as a start bit at low level, eight data bits with the least significant first and a
stop bit at high level; else LINKDE is released and LINKTX high. That the restart is REPLY_END's own step is log 11 (DEDUCED),
the recorded idle measure log 14. Two things are the model's (DESIGN CHOICE): that the receiver awaits idle, with an idle
measure of 4, while the reply is transmitted (log 23), and that the step of an abort or a cancel ends with the sleep-entry test
also where the reply was a restart's RECEIPT (log 21). -/
def Obligations.ReplyTransmission : Prop :=
  (∀ (r : List Byte) (s : State), s.Ready →
     (s.link.tx = .pending r →
       exec .replyStart s = .next { s with link.tx := .transmitting r, link.rx := { Receiver.awaiting with idle := 4 } } ∧
       exec .replyCancel s = .next (State.endOfStep { s with
         link.rx := if s.link.rx.cond = .hunting then Receiver.start else Receiver.awaiting
         link.tx := .idle, link.collide := counted s.link.collide, ia.flags0 := s.ia.flags0 ||| rxErr })) ∧
     (s.link.tx = .transmitting r →
       (s.own.restartPending = false → exec .replyEnd s = .next { s with link.tx := .idle, link.rx := Receiver.awaiting }) ∧
       (s.own.restartPending = true → ∃ t : State, exec .replyEnd s = .next t ∧ s.SoftRestartTable t) ∧
       exec .replyAbort s = .next (State.endOfStep { s with
         link.rx := Receiver.awaiting, link.tx := .idle, link.collide := counted s.link.collide
         ia.flags0 := s.ia.flags0 ||| rxErr }))) ∧
  (∀ s : State, s.held = false →
     (∀ r : List Byte, s.link.tx = .transmitting r →
       s.linkDe = true ∧
       (∀ n : Nat, n < r.length →
         s.linkTx (10 * n) = false ∧
         (∀ b : Fin 8, s.linkTx (10 * n + 1 + b.val) = (byteAt r n).getLsbD b.val) ∧
         s.linkTx (10 * n + 9) = true) ∧
       ∀ n : Nat, 10 * r.length ≤ n → s.linkTx n = true) ∧
     ((∀ r : List Byte, s.link.tx ≠ .transmitting r) → s.linkDe = false ∧ ∀ n, s.linkTx n = true) ∧
     s.bitMicros = (if s.link.rate = 0#2 then 16 else if s.link.rate = 1#2 then 8 else if s.link.rate = 2#2 then 4 else 2))

/-! ### Frames -/

/-- R26: a run of bytes followed by its CHECK leaves the remainder 0. R23: a byte's ten levels on the line are sampled as that
byte, and a stop bit at low level as a stop fault. R25, R27, R28: a frame that any node writes out, received without a fault, is
classified by R28's direction, body and addressing rules alone, and if it is valid every field of it is read back. -/
def Obligations.FrameRoundTrip : Prop :=
  (∀ bs : List Byte, crc (withCheck bs) = 0#16) ∧
  (∀ (b : Byte) (stop : Bool) (level : Nat → Bool),
     (∀ n : Fin 8, level (n.val + 1) = b.getLsbD n.val) → level 9 = stop →
     sampleByte level = { value := b, stopFault := !stop }) ∧
  (∀ (own : BitVec 5) (f : Frame), f.body.length ≤ 48 →
     let seen := classify own ((onLine f.bytes).foldl Receiver.receive Receiver.start)
     (¬(f.directionRule ∧ f.bodyRule) → seen = .badFormat) ∧
     (f.directionRule → f.bodyRule → f.misdirectedAt own → seen = .misdirected) ∧
     (f.directionRule → f.bodyRule → ¬f.misdirectedAt own → seen = .valid f))

/-- R24, R27, R29, R46, R48: a completed frame in RUN, DOZE and SETTLING. The tests of R27 are made in their order on the bytes
seen; the first that fails decides. A frame that passes them all is dispatched if it is from the head, and is a clash if it is a
satellite's with the own address. -/
def Obligations.FrameCompletion : Prop :=
  ∀ (rx : List RxByte) (s : State), s.frameReady → s.awake = true →
    let bs := rx.map (·.value)
    let len := (byteAt bs 3).toNat
    let check := crc (bs.take (4 + len))
    let u := { s with link.rx := Receiver.completed }
    let formErr : State :=
      { u with link.formErr := counted s.link.formErr, ia.flags0 := s.ia.flags0 ||| rxErr }
    exec (.frameCompletion rx) s = .next (State.endOfStep (
      if rx.any (·.stopFault) then formErr
      else if bs.length < 6 then formErr
      else if 48 < len then formErr
      else if bs.length ≠ 6 + len then formErr
      else if bs.drop (4 + len) ≠ [hiByte check, loByte check] then
        { u with link.crcErr := counted s.link.crcErr, ia.flags0 := s.ia.flags0 ||| rxErr }
      else if (byteAt bs 0).extractLsb' 5 3 ≠ 0#3 ∨ (byteAt bs 1).extractLsb' 5 3 ≠ 0#3 then formErr
      else
        match kindOf ((byteAt bs 2).extractLsb' 4 4) with
        | none => { u with link.unknown := counted s.link.unknown, ia.flags0 := s.ia.flags0 ||| rxErr }
        | some kind =>
          let f : Frame :=
            { dest := (byteAt bs 0).setWidth 5, src := (byteAt bs 1).setWidth 5, kind := kind
              av := (byteAt bs 2).getLsbD 3, tn := (byteAt bs 2).setWidth 3, body := (bs.drop 4).take len }
          if ¬(f.directionRule ∧ f.bodyRule) then formErr
          else if f.misdirectedAt s.link.addr then { u with link.watchdog := 0 }
          else if kind.fromHead then State.dispatch f { u with link.watchdog := 0 }
          else if f.src = s.link.addr ∧ s.link.addr ≠ 0#5 ∧
              (s.link.state = .listen ∨ s.link.state = .joined ∨ s.link.state = .hushed) then u.clash
          else u))

/-- R32: the frames that the link state ignores restart the silence watchdog and do nothing else. -/
def Obligations.IgnoredFrames : Prop :=
  ∀ s : State, s.frameReady → s.awake = true →
    (s.addressed → s.link.state ≠ .joined →
      (∀ av tn, exec (.poll av tn) s = .next s.heard.endOfStep) ∧
      (∀ tn chan payload, payload.length ≤ 16 → exec (.deliver tn chan payload) s = .next s.heard.endOfStep) ∧
      (∀ addr count, exec (.peek addr count) s = .next s.heard.endOfStep) ∧
      (∀ addr data, 1 ≤ data.length → data.length ≤ 16 → exec (.poke addr data) s = .next s.heard.endOfStep)) ∧
    (s.link.state = .listen ∨ s.link.state = .clashed →
      (∀ tn chan payload, payload.length ≤ 16 →
        exec (.broadcastDeliver tn chan payload) s = .next s.heard.endOfStep) ∧
      ∀ toAll d, (toAll = true ∨ s.addressed) → exec (.hush toAll d) s = .next s.heard.endOfStep) ∧
    (s.addressed → s.link.state = .clashed → exec .rollcall s = .next s.heard.endOfStep)

/-! ### Joining and leaving the link -/

/-- R30, R43, R50, R159: a plain ROLLCALL to the own address in LISTEN, JOINED or HUSHED joins with a new SESSION, the turns
reset and the time-set indication cleared, and composes a HELLO; from JOINED and HUSHED the item in flight is returned first; in
CLASHED it is ignored. R42, R44, R47: a ROLLCALL by serial acts, in every link state but OFF, only if the serial number is the
part's own: with a new address 1..30 it returns the item in flight, readdresses and joins with a HELLO from the new address;
with 0 it unassigns, goes to LISTEN with RLOCK 0 and no turn reset, and draws no reply. -/
def Obligations.Rollcalls : Prop :=
  (∀ s : State, s.frameReady → s.awake = true → s.addressed →
     (s.link.state = .listen ∨ s.link.state = .joined ∨ s.link.state = .hushed) →
     let s1 := if s.link.state = .listen then s else s.returnToSource
     let u : State := { s1 with
       link := { s.link with
         state := .joined, session := s.link.session + 1, watchdog := 0, quiet := .stopped, rx := Receiver.completed }
       ob.nextTurn := 0, ib.lastTurn := 7, st.timeSet := false, ia.flags0 := s.ia.flags0 ||| linkChg }
     exec .rollcall s = .next { u with
       link.tx := .pending (Frame.bytes {
         dest := 0, src := s.link.addr, kind := .hello, av := false, tn := 0
         body := serialBytes s.serial ++ [0x3B#8, 0x02#8, s.link.session + 1, 6#8, 12#8] ++ u.digest }) }) ∧
  (∀ (serial : BitVec 48) (newAddr : Byte) (s : State), s.frameReady → s.awake = true → newAddr.toNat ≤ 30 →
     (serial ≠ s.serial → exec (.rollcallBySerial serial newAddr) s = .next s.heard.endOfStep) ∧
     (serial = s.serial → newAddr = 0#8 →
       exec (.rollcallBySerial serial newAddr) s = .next (State.endOfStep { s.returnToSource with
         link := { s.link with
           addr := 0, state := .listen, watchdog := 0, quiet := .stopped, rx := Receiver.completed }
         own.rlock := 0, ia.flags0 := s.ia.flags0 ||| linkChg })) ∧
     (serial = s.serial → newAddr ≠ 0#8 →
       let u : State := { s.returnToSource with
         link := { s.link with
           addr := newAddr.setWidth 5, state := .joined, session := s.link.session + 1, watchdog := 0, quiet := .stopped
           rx := Receiver.completed }
         ob.nextTurn := 0, ib.lastTurn := 7, st.timeSet := false, ia.flags0 := s.ia.flags0 ||| linkChg }
       exec (.rollcallBySerial serial newAddr) s = .next { u with
         link.tx := .pending (Frame.bytes {
           dest := 0, src := newAddr.setWidth 5, kind := .hello, av := false, tn := 0
           body := serialBytes s.serial ++ [0x3B#8, 0x02#8, s.link.session + 1, 6#8, 12#8] ++ u.digest }) })) ∧
  (∀ s : State, s.frameReady → s.awake = true → s.addressed → s.link.state = .clashed →
    exec .rollcall s = .next s.heard.endOfStep)

/-- R45: a HUSH in JOINED returns the item in flight and makes the link HUSHED for its quiet period, with LINKCHG set and no
turn reset; in HUSHED it reloads the quiet period and does nothing else. When a loaded quiet period has run out, and the
watchdog does not expire in the same tick, the link returns to JOINED with LINKCHG set and the watchdog restarted (R48); the
turns, the item in flight and RLOCK are as they were, and the rest of the tick follows. -/
def Obligations.HushAndQuietPeriod : Prop :=
  (∀ (toAll : Bool) (d : Half) (s : State), s.frameReady → s.awake = true → (toAll = true ∨ s.addressed) →
     let period : Quiet := if d = 0#16 then .untilRollcall else .left (d.toNat * 10)
     (s.link.state = .joined →
       exec (.hush toAll d) s = .next (State.endOfStep { s.returnToSource with
         link := { s.link with state := .hushed, quiet := period, watchdog := 0, rx := Receiver.completed }
         ia.flags0 := s.ia.flags0 ||| linkChg })) ∧
     (s.link.state = .hushed →
       exec (.hush toAll d) s = .next (State.endOfStep { s with
         link := { s.link with quiet := period, watchdog := 0, rx := Receiver.completed } }))) ∧
  (∀ (sns : BitVec 4) (s : State) (ms : Nat), s.Ready → s.awake = true → s.link.state = .hushed →
     s.link.quiet = .left ms → ms ≤ 1 → s.watchdogExpires = false →
     ∃ t : State, exec (.quietPeriodExpiry sns) s = .next t.endOfStep ∧
       t = { s with
         st := { (s.st.sampleAll sns) with localTime := s.st.localTime + 1 }
         link := { s.link with state := .joined, quiet := .stopped, watchdog := 0 }
         ob.boxes := tabulate fun i => s.ob.boxes[i].tick
         lm := s.lm.tick
         ks := s.ks.tick s.pr.state
         jr := (s.tickBase.recordAll (s.lm.tickEvents ++ s.st.sampleEvents sns)).jr
         ia.flags0 :=
           (s.ia.flags0 ||| linkChg) ||| if ∃ i : Fin 6, s.ob.boxes[i].stale = true then mbStaleFlag else 0#8
         ia.flags1 := (s.tickBase.recordAll (s.lm.tickEvents ++ s.st.sampleEvents sns)).ia.flags1 })

/-- R49, R158, R159: a BEACON with SETTIME loads local time, sets TIMESET and the time-set indication, in every link state but
OFF; without SETTIME it restarts the watchdog alone. Outside SLEEP its WAKE bit has no effect. -/
def Obligations.Beacon : Prop :=
  ∀ (flags : Byte) (time : BitVec 32) (s : State), s.frameReady → s.awake = true →
    (flags.getLsbD 0 = true → exec (.beacon flags time) s = .next (State.endOfStep { s with
      link.rx := Receiver.completed, link.watchdog := 0, st.localTime := time, st.timeSet := true
      ia.flags1 := s.ia.flags1 ||| timeSetFlag })) ∧
    (flags.getLsbD 0 = false → exec (.beacon flags time) s = .next (State.endOfStep { s with
      link.rx := Receiver.completed, link.watchdog := 0 }))

/-- R46: a valid satellite frame that carries the own address is a clash in LISTEN, JOINED and HUSHED: the item in flight is
returned, the link is CLASHED with its timers stopped and RLOCK 0, COLLIDE is counted, and RXERR, CLASH and LINKCHG are set; in
CLASHED it changes nothing and counts nothing. -/
def Obligations.Clash : Prop :=
  ∀ (kind : BitVec 4) (body : List Byte) (s : State), s.frameReady → s.awake = true → s.addressed →
    9 ≤ kind.toNat → kind.toNat ≤ 13 → body.length ≤ 48 →
    ((s.link.state = .listen ∨ s.link.state = .joined ∨ s.link.state = .hushed) →
      exec (.clash kind body) s = .next (State.endOfStep { s.returnToSource with
        link := { s.link with
          state := .clashed, watchdog := 0, quiet := .stopped, rx := Receiver.completed
          collide := counted s.link.collide }
        own.rlock := 0
        ia.flags0 := s.ia.flags0 ||| rxErr ||| (clashFlag ||| linkChg) })) ∧
    (s.link.state = .clashed → exec (.clash kind body) s = .next (State.endOfStep { s with link.rx := Receiver.completed }))

/-! ### Outbound service: POLL -/

/-- R106: a POLL in JOINED runs stages 1 to 4 and draws one reply, composed last: an ANSWER with the turn and the item in
flight, or NOTHING with TN 0; the digest comes first in either body. -/
def Obligations.PollReply : Prop :=
  ∀ (av : Bool) (tn : BitVec 3) (s : State), s.frameReady → s.awake = true → s.addressed → s.link.state = .joined →
    let u := s.heard.pollStages av tn
    let frame (kind : FrameKind) (turn : BitVec 3) (item : List Byte) : Frame :=
      { dest := 0, src := s.link.addr, kind := kind, av := false, tn := turn, body := u.digest ++ item }
    (∀ (f : InFlight) (i : Fin 6), u.ob.inFlight = some f → f.item = .mailbox i →
      exec (.poll av tn) s = .next { u with
        link.tx := .pending (Frame.bytes (frame .answer f.turn (
          [1#8, BitVec.ofNat 8 i.val, u.ob.boxes[i].mail.chan, u.ob.boxes[i].mail.len] ++
            u.ob.boxes[i].mail.data.toList.take u.ob.boxes[i].mail.len.toNat))) }) ∧
    (∀ f : InFlight, u.ob.inFlight = some f → f.item = .batch →
      exec (.poll av tn) s = .next { u with
        link.tx := .pending (Frame.bytes (frame .answer f.turn (
          [2#8, BitVec.ofNat 8 (u.jr.list.filter (·.pinned)).length, u.jr.batch.getD 0] ++
            (u.jr.list.filter (·.pinned)).flatMap fun r =>
              [r.seq, r.kind.code, r.subject, r.detail, hiByte r.stamp, loByte r.stamp]))) }) ∧
    (u.ob.inFlight = none →
      exec (.poll av tn) s = .next { u with link.tx := .pending (Frame.bytes (frame .nothing 0 [])) })

/-- R81, R92, R100: a POLL with AV 1 and the turn of the item in flight acknowledges it: a mailbox becomes EMPTY with its
MBDONEMAP bit and MBDONE set and its refresh untouched, a batch loses its remote wants; the next turn moves on, and the POLL
goes on to stage 3. -/
def Obligations.PollAcknowledges : Prop :=
  ∀ (f : InFlight) (s : State), s.frameReady → s.awake = true → s.addressed → s.link.state = .joined →
    s.ob.inFlight = some f →
    (∀ i : Fin 6, f.item = .mailbox i →
      exec (.poll true f.turn) s = .next (State.replyPoll (State.pollSelect { s.heard with
        ob := { s.ob with
          boxes := s.ob.boxes.set i { s.ob.boxes[i] with state := .empty, cancelPending := false }
          inFlight := none
          nextTurn := f.turn + 1 }
        ia.mbDone := s.ia.mbDone ||| 1#8 <<< i.val
        ia.flags0 := s.ia.flags0 ||| mbDoneFlag }))) ∧
    (f.item = .batch →
      exec (.poll true f.turn) s = .next (State.replyPoll (State.pollSelect { s.heard with
        ob := { s.ob with inFlight := none, nextTurn := f.turn + 1 }
        jr := { s.jr with
          list := (s.jr.list.map fun r => if r.pinned then { r with wantRemote := false, pinned := false } else r).filter
            fun r => r.wantLocal || r.wantRemote
          batch := none } })))

/-- R83, R92, R100 to R103: a POLL that does not acknowledge the item in flight withdraws a mailbox with cancel pending, else
resends the item while RESEND is 0 or its resend count is less than RESEND, else drops it. -/
def Obligations.PollUnacknowledged : Prop :=
  ∀ (av : Bool) (tn : BitVec 3) (f : InFlight) (s : State), s.frameReady → s.awake = true → s.addressed →
    s.link.state = .joined → s.ob.inFlight = some f → (av = false ∨ tn ≠ f.turn) →
    (∀ i : Fin 6, f.item = .mailbox i → s.ob.boxes[i].cancelPending = true →
      exec (.poll av tn) s = .next (State.replyPoll (State.pollSelect { s.heard with
        ob := { s.ob with
          boxes := s.ob.boxes.set i { s.ob.boxes[i] with state := .empty, cancelPending := false }
          inFlight := none
          nextTurn := f.turn + 1 } }))) ∧
    ((∀ i : Fin 6, f.item = .mailbox i → s.ob.boxes[i].cancelPending = false) →
      ((s.ob.resend = 0#8 ∨ f.resends < s.ob.resend.toNat) →
        exec (.poll av tn) s = .next (State.replyPoll { s.heard with
          ob.inFlight := some { f with resends := min 15 (f.resends + 1) } })) ∧
      (s.ob.resend ≠ 0#8 → s.ob.resend.toNat ≤ f.resends →
        (∀ i : Fin 6, f.item = .mailbox i →
          exec (.poll av tn) s = .next (State.replyPoll (State.pollSelect { s.heard with
            ob := { s.ob with
              boxes := s.ob.boxes.set i { s.ob.boxes[i] with
                state := .empty, cancelPending := false, drops := counted s.ob.boxes[i].drops }
              inFlight := none
              nextTurn := f.turn + 1 }
            ia.flags0 := s.ia.flags0 ||| mbDropFlag }))) ∧
        (f.item = .batch →
          exec (.poll av tn) s = .next (State.replyPoll (State.pollSelect { s.heard with
            ob := { s.ob with inFlight := none, nextTurn := f.turn + 1 }
            jr := { s.jr with
              list :=
                (s.jr.list.map fun r => if r.pinned then { r with wantRemote := false, pinned := false } else r).filter
                  fun r => r.wantLocal || r.wantRemote
              remoteLost := satAdd (satAdd s.jr.remoteLost (s.jr.batch.getD 0))
                (BitVec.ofNat 8 (s.jr.list.filter (·.pinned)).length)
              batch := none } })))))

/-- R80, R104, R105, R106: with no item in flight a POLL chooses the journal by patience, else the first of the READY mailboxes
below JRANK, the journal, the other READY mailboxes; the item takes the next turn with resend count 0, and the journal passed
counter follows. -/
def Obligations.PollSelects : Prop :=
  ∀ (av : Bool) (tn : BitVec 3) (s : State), s.frameReady → s.awake = true → s.addressed → s.link.state = .joined →
    s.ob.inFlight = none →
    let eligible : Prop := ∃ r ∈ s.jr.list, r.wantRemote = true ∧ r.pinned = false
    let patient : Prop := s.ob.patience ≠ 0#8 ∧ s.ob.patience.toNat ≤ s.ob.passed ∧ eligible
    let pinned := pinFirst s.jr.batchSize.toNat s.jr.list
    ((patient ∨ (eligible ∧ ∀ j : Fin 6, j.val < s.ob.jrank.toNat → s.ob.boxes[j].state ≠ .ready)) →
      exec (.poll av tn) s = .next (State.replyPoll { s.heard with
        ob := { s.ob with inFlight := some { item := .batch, turn := s.ob.nextTurn, resends := 0 }, passed := 0 }
        jr := { s.jr with list := pinned, batch := some s.jr.remoteLost, remoteLost := 0 } })) ∧
    (∀ i : Fin 6, ¬patient → s.ob.boxes[i].state = .ready → (∀ j : Fin 6, j < i → s.ob.boxes[j].state ≠ .ready) →
      (i.val < s.ob.jrank.toNat ∨ ¬eligible) →
      ∃ passed : Nat, (eligible → passed = min 15 (s.ob.passed + 1)) ∧ (¬eligible → passed = s.ob.passed) ∧
        exec (.poll av tn) s = .next (State.replyPoll { s.heard with
          ob := { s.ob with
            boxes := s.ob.boxes.set i { s.ob.boxes[i] with state := .offered }
            inFlight := some { item := .mailbox i, turn := s.ob.nextTurn, resends := 0 }
            passed := passed } })) ∧
    (¬eligible → (∀ j : Fin 6, s.ob.boxes[j].state ≠ .ready) →
      exec (.poll av tn) s = .next (State.replyPoll s.heard)) ∧
    ((∀ r ∈ s.jr.list, r.pinned = false) →
      pinned.filter (·.pinned) =
        ((s.jr.list.filter (·.wantRemote)).take s.jr.batchSize.toNat).map (fun r => { r with pinned := true }) ∧
      pinned.map (fun r => { r with pinned := false }) = s.jr.list)

/-! ### Journal -/

/-- R70 to R72, R74, R84 to R87: what becomes of an event: not recorded, appended, lost, or appended after the eviction of the
oldest record; the record that becomes presented takes the local lost counter, and JLOSS is set where that counter is counted.
-/
def Obligations.JournalTakesEvent : Prop :=
  ∀ (e : Event) (s : State),
    let routing := s.jr.routing e.kind.routeClass
    let forLocal := routing.getLsbD 0
    let forRemote := routing.getLsbD 1 && s.linkOn
    let r : JRecord :=
      { seq := s.jr.nextSeq, kind := e.kind, subject := e.subject, detail := e.detail, stamp := s.st.localTime.setWidth 16
        wantLocal := forLocal, wantRemote := forRemote, pinned := false }
    let lost : State := { s with
      jr := { s.jr with
        localLost := if forLocal then counted s.jr.localLost else s.jr.localLost
        remoteLost := if forRemote then counted s.jr.remoteLost else s.jr.remoteLost }
      ia.flags1 := if forLocal then s.ia.flags1 ||| jLossFlag else s.ia.flags1 }
    (forLocal = false → forRemote = false → s.record e = s) ∧
    ((forLocal = true ∨ forRemote = true) →
      (s.jr.list.length < 64 →
        ((forLocal = false ∨ ∃ x ∈ s.jr.list, x.wantLocal = true) →
          s.record e = { s with jr := { s.jr with list := s.jr.list ++ [r], nextSeq := s.jr.nextSeq + 1 } }) ∧
        (forLocal = true → (∀ x ∈ s.jr.list, x.wantLocal = false) →
          s.record e = { s with jr := { s.jr with
            list := s.jr.list ++ [r], nextSeq := s.jr.nextSeq + 1
            presentedLoss := s.jr.localLost, localLost := 0 } })) ∧
      (64 ≤ s.jr.list.length → s.jr.policy ≠ 1#8 → s.record e = lost) ∧
      ∀ (o : JRecord) (rest : List JRecord), s.jr.list = o :: rest → 64 ≤ s.jr.list.length → s.jr.policy = 1#8 →
        (o.pinned = true → s.record e = lost) ∧
        (o.pinned = false →
          let remoteLost := if o.wantRemote then counted s.jr.remoteLost else s.jr.remoteLost
          let reported := (rest ++ [r]).any (·.wantLocal)
          (o.wantLocal = true →
            let n := counted (satAdd s.jr.localLost s.jr.presentedLoss)
            s.record e = { s with
              jr := { s.jr with
                list := rest ++ [r], nextSeq := s.jr.nextSeq + 1, remoteLost := remoteLost
                presentedLoss := if reported then n else 0, localLost := if reported then 0 else n }
              ia.flags1 := s.ia.flags1 ||| jLossFlag }) ∧
          (o.wantLocal = false →
            s.record e = { s with jr := { s.jr with
              list := rest ++ [r], nextSeq := s.jr.nextSeq + 1, remoteLost := remoteLost
              presentedLoss :=
                if forLocal && !rest.any (·.wantLocal) then s.jr.localLost else s.jr.presentedLoss
              localLost := if forLocal && !rest.any (·.wantLocal) then 0 else s.jr.localLost } })))

/-! ### Inbound service -/

/-- R117: the first enabled entry whose masked channel bits agree decides; if none does, the default action with filter index 8
and no notify. -/
def Obligations.FilterDecides : Prop :=
  ∀ (chan : Byte) (ib : Inbound),
    let agrees (i : Fin 8) : Prop := ib.filters[i].en = true ∧
      ∀ b : Fin 6, ib.filters[i].mask.getLsbD b.val = true → chan.getLsbD b.val = ib.filters[i].chan.getLsbD b.val
    (∀ i : Fin 8, agrees i → (∀ j : Fin 8, j < i → ¬agrees j) →
      ib.judge chan = {
        action := ib.filters[i].action, filt := i.val
        notify := if ib.filters[i].notify then some i else none }) ∧
    ((∀ j : Fin 8, ¬agrees j) → ib.judge chan = { action := ib.dflt, filt := 8, notify := none })

/-- R113 to R120, R124: a unicast DELIVER in JOINED: the turn, channel and room tests in their order, each failing one answered
with no other effect; an accepted delivery is stored, carried out as lamp commands and notified as its verdict says, its turn is
the last accepted one, and a RECEIPT of ACCEPTED is composed last. -/
def Obligations.Deliver : Prop :=
  ∀ (tn : BitVec 3) (chan : Byte) (payload : List Byte) (s : State), s.frameReady → s.awake = true → s.addressed →
    s.link.state = .joined → payload.length ≤ 16 →
    let v := s.ib.judge chan
    let stores : Prop := v.action = .queue ∨ v.action = .both
    let lamps : Prop := v.action = .lamp ∨ v.action = .both
    let answer (code detail : Byte) (u : State) : State := { u with
      link.tx := .pending (Frame.bytes {
        dest := 0, src := s.link.addr, kind := .receipt, av := false, tn := u.ib.lastTurn + 1
        body := [code, detail] ++ u.digest }) }
    let r : IqRecord :=
      { tag := s.ib.nextTag, chan := chan, payload := payload, filt := v.filt, broadcast := false
        stamp := s.st.localTime.setWidth 16 }
    (tn = s.ib.lastTurn → exec (.deliver tn chan payload) s = .next (answer 0x01#8 0#8 s.heard)) ∧
    (tn ≠ s.ib.lastTurn → tn ≠ s.ib.lastTurn + 1 →
      exec (.deliver tn chan payload) s = .next (answer 0x03#8 0#8 s.heard)) ∧
    (tn = s.ib.lastTurn + 1 →
      (64 ≤ chan.toNat → exec (.deliver tn chan payload) s = .next (answer 0x13#8 chan s.heard)) ∧
      (chan.toNat ≤ 63 → stores → 12 ≤ s.ib.queue.length →
        exec (.deliver tn chan payload) s = .next (answer 0x02#8 0#8 s.heard)) ∧
      (chan.toNat ≤ 63 → (stores → s.ib.queue.length < 12) →
        ∃ u : State, exec (.deliver tn chan payload) s = .next (answer 0x00#8 0#8 u) ∧
          (stores → u.ib = { s.ib with queue := s.ib.queue ++ [r], nextTag := s.ib.nextTag + 1, lastTurn := tn }) ∧
          (¬stores → u.ib = { s.ib with lastTurn := tn }) ∧
          (lamps → u.lm = s.lm.payload payload) ∧
          (¬lamps → u.lm = s.lm) ∧
          (∀ i, v.notify = some i →
            u.ia = { s.ia with fHit := s.ia.fHit ||| 1#8 <<< i.val, flags1 := s.ia.flags1 ||| fHitFlag }) ∧
          (v.notify = none → u.ia = s.ia) ∧
          u = { s.heard with ib := u.ib, lm := u.lm, ia := u.ia }))

/-- R121, R124: a broadcast DELIVER in JOINED or HUSHED has no turn test and no reply; a full queue loses only the record, which
IQDROPS and IQDROP count, and the last accepted turn stays. -/
def Obligations.BroadcastDeliver : Prop :=
  ∀ (tn : BitVec 3) (chan : Byte) (payload : List Byte) (s : State), s.frameReady → s.awake = true →
    (s.link.state = .joined ∨ s.link.state = .hushed) → payload.length ≤ 16 →
    let v := s.ib.judge chan
    let stores : Prop := v.action = .queue ∨ v.action = .both
    let lamps : Prop := v.action = .lamp ∨ v.action = .both
    let r : IqRecord :=
      { tag := s.ib.nextTag, chan := chan, payload := payload, filt := v.filt, broadcast := true
        stamp := s.st.localTime.setWidth 16 }
    (64 ≤ chan.toNat → exec (.broadcastDeliver tn chan payload) s = .next s.heard.endOfStep) ∧
    (chan.toNat ≤ 63 →
      ∃ u : State, exec (.broadcastDeliver tn chan payload) s = .next u.endOfStep ∧
        (stores → s.ib.queue.length < 12 →
          u.ib = { s.ib with queue := s.ib.queue ++ [r], nextTag := s.ib.nextTag + 1 }) ∧
        (stores → 12 ≤ s.ib.queue.length → u.ib = { s.ib with drops := counted s.ib.drops }) ∧
        (¬stores → u.ib = s.ib) ∧
        (lamps → u.lm = s.lm.payload payload) ∧
        (¬lamps → u.lm = s.lm) ∧
        (let flags := if stores ∧ 12 ≤ s.ib.queue.length then s.ia.flags1 ||| iqDropFlag else s.ia.flags1
        (∀ i, v.notify = some i →
          u.ia = { s.ia with fHit := s.ia.fHit ||| 1#8 <<< i.val, flags1 := flags ||| fHitFlag }) ∧
        (v.notify = none → u.ia = { s.ia with flags1 := flags })) ∧
        u = { s.heard with ib := u.ib, lm := u.lm, ia := u.ia })

/-- R129, R130, R165, R168, R169, R174: a payload as lamp commands, two bytes each in order: a malformed command or an odd
trailing byte counts LDENY once; target 15 stands for lamps 0 to 11 in order; for each lamp the command is carried out, or
counts LDENY if the lamp is LOCAL or the command a PULSE on a lamp in PULSE. -/
def Obligations.LampPayload : Prop :=
  ∀ (lm : Lamps),
    let denied : Lamps := { lm with ldeny := counted lm.ldeny }
    lm.payload [] = lm ∧
    (∀ b : Byte, lm.payload [b] = denied) ∧
    (∀ (b c : Byte) (rest : List Byte),
      let op := (b.extractLsb' 4 4).toNat
      let target := (b.extractLsb' 0 4).toNat
      (4 < op ∨ (12 ≤ target ∧ target ≤ 14) ∨ 16 ≤ c.toNat → lm.payload (b :: c :: rest) = denied.payload rest) ∧
      (∀ o : LampOp,
        (op = 0 ∧ o = .off) ∨ (op = 1 ∧ o = .on) ∨ (op = 2 ∧ o = .blink) ∨ (op = 3 ∧ o = .pulse) ∨ (op = 4 ∧ o = .follow) →
        c.toNat ≤ 15 →
        (∀ n : Fin 12, target = n.val →
          lm.payload (b :: c :: rest) = (lm.deliverOne o (c.setWidth 4) n).payload rest) ∧
        (target = 15 →
          lm.payload (b :: c :: rest) =
            ((List.finRange 12).foldl (fun l n => l.deliverOne o (c.setWidth 4) n) lm).payload rest))) ∧
    (∀ (o : LampOp) (level : BitVec 4) (n : Fin 12),
      let l := lm.lamps[n]
      ((l.ctrl = .localOnly ∨ (o = .pulse ∧ (l.phase = .pulseWait ∨ l.phase = .pulseLit))) →
        lm.deliverOne o level n = denied) ∧
      (l.ctrl ≠ .localOnly → (o = .pulse → l.phase ≠ .pulseWait ∧ l.phase ≠ .pulseLit) →
        lm.deliverOne o level n = { lm with lamps := lm.lamps.set n (l.run o level lm.down) }))

/-! ### Remote register access -/

/-- R15, R58, R59: a PEEK in JOINED: a count or span out of range is answered RANGE with nothing captured; else the remote
snapshot of each field whose capture address lies in the span is taken afresh, and the bytes are read from the head's view in a
REGVAL. -/
def Obligations.Peek : Prop :=
  ∀ (addr count : Byte) (s : State), s.frameReady → s.awake = true → s.addressed → s.link.state = .joined →
    let covers (a : Nat) : Bool := decide (addr.toNat ≤ a ∧ a < addr.toNat + count.toNat)
    let box := s.ob.boxes[s.head.mbsel].mail
    let u : State := { s.heard with head.snap := {
      time := if covers 0x0C then bytes32 s.st.localTime else s.head.snap.time
      journal := if covers 0x38 then s.jr.window else s.head.snap.journal
      inbound := if covers 0x44 then s.ib.window else s.head.snap.inbound
      period := if covers 0x6F then [hiByte box.period, loByte box.period] else s.head.snap.period
      keymap := if covers 0x98 then keymapBytes s.ks.downSet else s.head.snap.keymap } }
    ((count = 0#8 ∨ 16 < count.toNat ∨ 0xFF < addr.toNat + count.toNat - 1) →
      exec (.peek addr count) s = .next (s.heard.replyReceipt 0x13#8 addr)) ∧
    (1 ≤ count.toNat → count.toNat ≤ 16 → addr.toNat + count.toNat - 1 ≤ 0xFF →
      exec (.peek addr count) s = .next { u with
        link.tx := .pending (Frame.bytes {
          dest := 0, src := s.link.addr, kind := .regval, av := false, tn := 0
          body := addr :: (List.range count.toNat).map
            (fun i => u.readReg .head (regAt (addr + BitVec.ofNat 8 i))) ++ u.digest }) })

/-- R60 to R64: a POKE in JOINED whose span passes 0xFF is answered RANGE; else the first byte that fails the access check,
judged in the state before the POKE but for the selectors written before it, refuses the whole POKE with its cause and address;
else the bytes take effect one after another, and DONE is answered unless the link has gone OFF. R64: 0x01 at RESTART by the
head, which owns SYS, sets restart pending and nothing else, whatever the POKE does before it; the step of a POKE of that one
byte restarts nothing and composes DONE. -/
def Obligations.Poke : Prop :=
  (∀ (addr : Byte) (data : List Byte) (s : State), s.frameReady → s.awake = true → s.addressed → s.link.state = .joined →
     1 ≤ data.length → data.length ≤ 16 →
     let reg (i : Nat) : Reg := regAt (addr + BitVec.ofNat 8 i)
     let judged (i : Nat) : State :=
       (List.range i).foldl
         (fun acc j =>
           if reg j = .fsel ∨ reg j = .mbsel ∨ reg j = .lsel then acc.applyWrite .head (reg j) (byteAt data j) else acc)
         s.heard
     (0xFF < addr.toNat + data.length - 1 → exec (.poke addr data) s = .next (s.heard.replyReceipt 0x13#8 addr)) ∧
     (addr.toNat + data.length - 1 ≤ 0xFF →
       (∀ (i : Nat) (c : Cause), i < data.length → (judged i).check .head (reg i) (byteAt data i) = some c →
         (∀ j < i, (judged j).check .head (reg j) (byteAt data j) = none) →
         exec (.poke addr data) s = .next (s.heard.replyReceipt c.code (addr + BitVec.ofNat 8 i))) ∧
       ((∀ j < data.length, (judged j).check .head (reg j) (byteAt data j) = none) →
         let u := (List.range data.length).foldl (fun acc j => acc.applyWrite .head (reg j) (byteAt data j)) s.heard
         exec (.poke addr data) s = .next (if u.link.state = .off then u else u.replyReceipt 0x10#8 0#8).endOfStep))) ∧
  (∀ u : State, u.applyWrite .head (regAt 0x05#8) 1#8 = { u with own.restartPending := true }) ∧
  (∀ s : State, s.frameReady → s.awake = true → s.addressed → s.link.state = .joined → s.owns .head .sys →
     let u : State := { s.heard with own.restartPending := true }
     let done : State := { u with
       link.tx := .pending (Frame.bytes {
         dest := 0, src := s.link.addr, kind := .receipt, av := false, tn := s.ib.lastTurn + 1
         body := [0x10#8, 0#8] ++ u.digest }) }
     exec (.poke 0x05#8 [1#8]) s = .next done ∧ exec (.registerWrite .head 0x05#8 1#8) s = .next done)

/-! ### SPI transactions -/

/-- R5, R189: the command byte of a transaction: WRITE and READ are admitted in RUN, DOZE and SETTLING, STATUS and WAKE always;
what is not admitted or unassigned goes to IGNORE. WAKE requests a wake in SLEEP and does nothing else elsewhere. R4, R6, R8,
R9: the address byte of a WRITE or READ loads the address pointer; a byte of STATUS_STREAM or IGNORE is discarded; the rise of
CSN ends the transaction and discards a pending capture, and its fall loads the STATUS byte. That no command is the current one
after the rise is the model's (DESIGN CHOICE: log 19). -/
def Obligations.SpiTransactions : Prop :=
  (∀ s : State, s.byteReady .awaitCommand →
     let goes (c : HostCommand) (p : Phase) (out : Byte) : State :=
       { s with hp.command := c, hp.phase := p, hp.out := out }
     let asleep : Prop := s.pr.state = .sleep ∨ s.pr.state = .waking
     (¬asleep → exec .write s = .next (goes .write .awaitAddress s.statusByte)) ∧
     (¬asleep → exec .read s = .next (goes .read .awaitAddress s.statusByte)) ∧
     (asleep → exec .write s = .next (goes .unassigned .ignore 0xFF#8) ∧
       exec .read s = .next (goes .unassigned .ignore 0xFF#8)) ∧
     exec .status s = .next (goes .status .statusStream s.statusByte) ∧
     (s.pr.state ≠ .sleep → exec .wake s = .next (goes .wake .ignore 0xFF#8)) ∧
     (s.pr.state = .sleep → exec .wake s = .next { goes .wake .ignore 0xFF#8 with
       pr := { s.pr with state := .waking, request := some (.host, 0), wakeTicks := 0 }
       ks := { s.ks with clock := 0, due := false } }) ∧
     ∀ b : Byte, b ≠ 0xA0#8 → b ≠ 0xA1#8 → b ≠ 0xA8#8 → b ≠ 0xAF#8 →
       exec (.unassignedCommand b) s = .next (goes .unassigned .ignore 0xFF#8)) ∧
  (∀ (b : Byte) (s : State),
     (s.byteReady .awaitAddress →
       (s.hp.command = .write → exec (.addressByte b) s = .next { s with
         hp.pointer := b, hp.phase := .writeData, hp.out := s.statusByte }) ∧
       (s.hp.command = .read → exec (.addressByte b) s = .next { s with
         hp.pointer := b, hp.phase := .turnaround, hp.out := s.statusByte })) ∧
     (s.byteReady .statusStream → exec (.statusStream b) s = .next { s with hp.out := s.statusByte }) ∧
     (s.byteReady .ignore → exec (.ignoredByte b) s = .next { s with hp.out := 0xFF#8 }) ∧
     (s.Ready → s.pins.csnLow = true → exec .csnRise s = .next (State.endOfStep { s with
       pins.csnLow := false
       hp := { s.hp with phase := .awaitCommand, command := .none, capture := none } })) ∧
     (s.Ready → s.pins.csnLow = false → exec .csnFall s = .next { s with
       pins.csnLow := true, hp.out := s.statusByte }))

/-- R9, R12 to R15, R75, R125, R148: what each address reads, and what a capture holds (`State.ReadTable`,
`State.CaptureTable`). R7, R9, R14, R15: the turnaround byte fetches the byte at the address pointer; each READ_DATA byte makes
a pending capture the local snapshot, advances the pointer and fetches again, and past 0xFF the transaction stops. A fetch at a
capture address takes the field's whole content into a pending capture and shows its first byte. -/
def Obligations.SpiReads : Prop :=
  (∀ (s : State) (m : Master), s.ReadTable m (fun a => s.readReg m (regAt a)) ∧ s.CaptureTable) ∧
  (∀ (b : Byte) (s : State),
     let settled : State :=
       match s.hp.capture with
       | none => s
       | some c => { s with
           host.snap :=
             match c.field with
             | .localTime => { s.host.snap with time := c.bytes }
             | .journal => { s.host.snap with journal := c.bytes }
             | .inbound => { s.host.snap with inbound := c.bytes }
             | .mbPeriod => { s.host.snap with period := c.bytes }
             | .keymap => { s.host.snap with keymap := c.bytes }
           hp.capture := none }
     (∀ (u : State) (a : Byte), (s.byteReady .turnaround ∧ u = s ∧ a = s.hp.pointer) ∨
         (s.byteReady .readData ∧ s.hp.pointer ≠ 0xFF#8 ∧ u = settled ∧ a = s.hp.pointer + 1) →
       let outcome := if s.hp.phase = .turnaround then exec (.turnaround b) s else exec (.readData b) s
       let captured (f : SnapField) (content : List Byte) : State := { u with
         hp := { u.hp with
           phase := .readData, pointer := a, capture := some { field := f, bytes := content }, out := byteAt content 0 } }
       (a = 0x0C#8 → outcome = .next (captured .localTime (bytes32 s.st.localTime))) ∧
       (a = 0x38#8 → outcome = .next (captured .journal s.jr.window)) ∧
       (a = 0x44#8 → outcome = .next (captured .inbound s.ib.window)) ∧
       (a = 0x6F#8 → outcome = .next (captured .mbPeriod
         [hiByte s.ob.boxes[s.host.mbsel].mail.period, loByte s.ob.boxes[s.host.mbsel].mail.period])) ∧
       (a = 0x98#8 → outcome = .next (captured .keymap (keymapBytes s.ks.downSet))) ∧
       (a ≠ 0x0C#8 → a ≠ 0x38#8 → a ≠ 0x44#8 → a ≠ 0x6F#8 → a ≠ 0x98#8 →
         outcome = .next { u with
           hp := { u.hp with phase := .readData, pointer := a, out := u.readReg .host (regAt a) } })) ∧
     (s.byteReady .readData → s.hp.pointer = 0xFF#8 →
       exec (.readData b) s = .next { settled with hp := { settled.hp with phase := .ignore, out := 0xFF#8 } }))

/-- R178, R181, R182, R184: the level flags, IRQN, the STATUS byte and the digest, field by field. The other output pins while
the part is not held in reset. Section 1.1, R4: SDO carries the output byte while CSN is low, and is released while it is high.
R163: in RUN, DOZE and SETTLING a lit lamp sinks current for level/15 of the time; a dark lamp, and every lamp in SLEEP and
WAKING, is released. R132, R134: a drive line is in use where SCANCTL.EN is 1, it lies below the number of drive lines that
MATRIX gives, and the scanner is clocked (DEDUCED: log 22); else it is inactive. -/
def Obligations.StatusAndDigest : Prop :=
  ∀ s : State,
    (s.iflags1.getLsbD 7 = true ↔ ∃ r ∈ s.jr.list, r.wantLocal = true) ∧
    (s.iflags1.getLsbD 6 = true ↔ s.ib.queue ≠ []) ∧
    (∀ n : Fin 6, s.iflags1.getLsbD n.val = s.ia.flags1.getLsbD n.val) ∧
    (s.irqAsserted = true ↔ s.held = false ∧
      ∃ n : Fin 8, (s.ia.flags0.getLsbD n.val = true ∧ s.ia.enable0.getLsbD n.val = true) ∨
        (s.iflags1.getLsbD n.val = true ∧ s.ia.enable1.getLsbD n.val = true)) ∧
    s.statusByte.getLsbD 7 = s.irqAsserted ∧
    s.statusByte.getLsbD 6 = s.iflags1.getLsbD 7 ∧
    s.statusByte.getLsbD 5 = s.iflags1.getLsbD 6 ∧
    (s.statusByte.getLsbD 4 = true ↔ s.link.state = .joined) ∧
    s.statusByte.extractLsb' 2 2 =
      (match s.pr.state with | .run => 0#2 | .doze => 1#2 | .settling => 2#2 | .sleep => 3#2 | .waking => 2#2) ∧
    s.statusByte.getLsbD 1 = s.ia.flags0.getLsbD 0 ∧
    s.statusByte.getLsbD 0 = s.ia.flags1.getLsbD 4 ∧
    (s.jr.list.length ≤ 64 →
      (s.digest0.extractLsb' 0 7).toNat = (s.jr.list.filter fun r => r.wantRemote && !r.pinned).length) ∧
    (s.jr.list.length ≤ 64 → (s.digest0.getLsbD 7 = true ↔ s.jr.remoteLost ≠ 0#8)) ∧
    (s.digest1.extractLsb' 0 4).toNat = 12 - s.ib.queue.length ∧
    s.digest1.extractLsb' 4 2 = s.statusByte.extractLsb' 2 2 ∧
    s.digest1.getLsbD 6 = s.pr.straps.hostless ∧
    s.digest1.getLsbD 7 = s.irqAsserted ∧
    (∀ i : Fin 6, s.digest2.getLsbD i.val = true ↔ s.ob.boxes[i].state = .ready) ∧
    s.digest2.getLsbD 6 = s.st.timeSet ∧
    (s.digest2.getLsbD 7 = true ↔ s.own.rlock ≠ 0#6) ∧
    (s.held = false →
      (s.pins.csnLow = true → s.sdo = some s.hp.out) ∧
      (s.pins.csnLow = false → s.sdo = none) ∧
      (∀ n : Fin 12,
        let l := s.lm.lamps[n]
        let lit : Prop := l.phase = .on ∨ l.phase = .blinkLit ∨ l.phase = .pulseLit ∨ l.phase = .followLit
        let serves : Prop := s.pr.state = .run ∨ s.pr.state = .doze ∨ s.pr.state = .settling
        (serves → lit → s.lampDuty n = l.level.toNat) ∧
        ((¬serves ∨ ¬lit) → s.lampDuty n = 0)) ∧
      ∀ d : Fin 8, s.driveInUse d = true ↔
        s.ks.en = true ∧ d.val < s.ks.drives.toNat + 1 ∧
          (s.pr.state = .run ∨ s.pr.state = .doze ∨ s.pr.state = .settling ∨
            (s.pr.state = .sleep ∧ s.ks.sleepWake = true)))

/-! ### Register writes by either master -/

/-- R13, R18, R51, R89, R109, R122, R123, R181: an accepted write of a configuration register of the LINK, OUTBOX, INBOX or
INPUT group, or of an interrupt enable, replaces that register's fields and changes nothing else. -/
def Obligations.ConfigurationWrites : Prop :=
  ∀ (m : Master) (v : Byte) (s : State),
    let o := s.opened m
    let f := s.ib.filters[(s.copies m).fsel]
    let filter (g : Filter) : State := { o with ib.filters := s.ib.filters.set (s.copies m).fsel g }
    let gives (addr : Byte) (u : State) : Prop :=
      s.writeReady m addr → exec (.registerWrite m addr v) s = .next (State.closed m u)
    (m = .host → gives 0x12#8 { o with ia.enable0 := v } ∧ gives 0x13#8 { o with ia.enable1 := v }) ∧
    (s.owns m .link →
      (v.setWidth 5 ≠ 31#5 → (s.linkOn = false ∨ v.setWidth 5 = s.link.addr) →
        gives 0x21#8 { o with link.addr := v.setWidth 5 }) ∧
      gives 0x22#8 { o with link.silence := v } ∧
      (v.toNat ≤ 15 → gives 0x23#8 { o with ob.resend := v })) ∧
    (s.owns m .outbox →
      (v.toNat ≤ 6 → gives 0x2B#8 { o with ob.jrank := v }) ∧
      (v.toNat ≤ 15 → gives 0x2C#8 { o with ob.patience := v }) ∧
      (1 ≤ v.toNat → v.toNat ≤ 6 → gives 0x2D#8 { o with jr.batchSize := v }) ∧
      gives 0x30#8 { o with jr.route := v.setWidth 6 } ∧
      (v.toNat ≤ 1 → gives 0x31#8 { o with jr.policy := v })) ∧
    (s.owns m .inbox →
      (v = 0#8 → gives 0x41#8 { o with ib.dflt := .queue }) ∧
      (v = 3#8 → gives 0x41#8 { o with ib.dflt := .discard }) ∧
      (∀ a : Action, a.code.setWidth 2 = v.extractLsb' 1 2 →
        gives 0x61#8 (filter { f with en := v.getLsbD 0, action := a, notify := v.getLsbD 3 })) ∧
      (v.toNat ≤ 63 → gives 0x62#8 (filter { f with chan := v })) ∧
      gives 0x63#8 (filter { f with mask := v.setWidth 6 })) ∧
    (s.owns m .input →
      (v.extractLsb' 0 3 ≠ 6#3 → v.extractLsb' 0 3 ≠ 7#3 →
        (s.ks.en = false ∨ (v.extractLsb' 4 3 = s.ks.drives ∧ v.extractLsb' 0 3 = s.ks.senses)) →
        gives 0x91#8 { o with ks.drives := v.extractLsb' 4 3, ks.senses := v.extractLsb' 0 3 }) ∧
      (1 ≤ v.toNat → v.toNat ≤ 16 → gives 0x92#8 { o with ks.period := v }) ∧
      (1 ≤ v.toNat → v.toNat ≤ 8 → gives 0x93#8 { o with ks.debounce := v }) ∧
      gives 0x94#8 { o with ks.longTime := v } ∧
      gives 0x95#8 { o with ks.rept := v })

/-- R18, R162, R164, R166: a write of a selector or of LGOLEVEL in range changes the writer's own copy alone; an accepted write
of a lamp register changes the lamp that the writer selects, and a running phase keeps its time. -/
def Obligations.SelectorAndLampWrites : Prop :=
  ∀ (m : Master) (v : Byte) (s : State),
    let o := s.opened m
    let n := (s.copies m).lsel
    let l := s.lm.lamps[n]
    let own (c : Copies) : State := match m with
      | .host => { o with host := c }
      | .head => { o with head := c }
    let lamp (x : Lamp) : State := { o with lm.lamps := s.lm.lamps.set n x }
    let gives (addr : Byte) (u : State) : Prop :=
      s.writeReady m addr → exec (.registerWrite m addr v) s = .next (State.closed m u)
    (∀ i : Fin 8, v.toNat = i.val → gives 0x60#8 (own { s.copies m with fsel := i })) ∧
    (∀ i : Fin 6, v.toNat = i.val → gives 0x68#8 (own { s.copies m with mbsel := i })) ∧
    (∀ i : Fin 12, v.toNat = i.val → gives 0xB0#8 (own { s.copies m with lsel := i })) ∧
    (v.toNat ≤ 15 → gives 0xB9#8 (own { s.copies m with lgoLevel := v.setWidth 4 })) ∧
    (s.owns m .lamp →
      (∀ c : Controller, c.code = v → gives 0xB1#8 (lamp { l with ctrl := c })) ∧
      (v ≠ 0#8 → gives 0xB3#8 (lamp { l with lon := v })) ∧
      (v ≠ 0#8 → gives 0xB4#8 (lamp { l with loff := v })) ∧
      gives 0xB5#8 (lamp { l with lcount := v }) ∧
      gives 0xB6#8 (lamp { l with ldelay := v }) ∧
      (v ≠ 0#8 → gives 0xB7#8 (lamp { l with lwidth := v })))

/-- R9, R19, R20, R21, R61, R63: a write that the access check refuses is reported and does nothing else: to the host by REFADDR
and REFCAUSE if REFUSED was clear, by REFUSED and by REFCOUNT; to the head by the RECEIPT. Each address with what refuses it, in
the order of R19: READ_ONLY; LOCAL_ONLY; NOT_OWNER by group; BUSY for LINKADDR, MATRIX and SENSECTLn; RANGE for every field. -/
def Obligations.RefusedWrites : Prop :=
  ∀ (m : Master) (addr v : Byte) (s : State), s.writeReady m addr →
    let refused (c : Cause) : State := match m with
      | .host =>
        let u : State := { s with
          rc := {
            addr := if s.ia.flags0.getLsbD 0 then s.rc.addr else addr
            cause := if s.ia.flags0.getLsbD 0 then s.rc.cause else c.code
            count := counted s.rc.count }
          ia.flags0 := s.ia.flags0 ||| refusedFlag
          hp.phase := if addr = 0xFF#8 then .ignore else .writeData
          hp.pointer := if addr = 0xFF#8 then 0xFF#8 else addr + 1 }
        { u with hp.out := if addr = 0xFF#8 then 0xFF#8 else u.statusByte }
      | .head => s.heard.replyReceipt c.code addr
    let refuses (c : Cause) : Prop := exec (.registerWrite m addr v) s = .next (refused c)
    let among (spans : List (Nat × Nat)) : Prop := ∃ p ∈ spans, p.1 ≤ addr.toNat ∧ addr.toNat ≤ p.2
    (∀ c, s.check m (regAt addr) v = some c → refuses c) ∧
    (among [(0x00, 0x02), (0x04, 0x04), (0x08, 0x0B), (0x16, 0x1F), (0x24, 0x25), (0x2A, 0x2A), (0x2E, 0x2F), (0x32, 0x3E),
        (0x40, 0x40), (0x43, 0x59), (0x5B, 0x5F), (0x64, 0x67), (0x69, 0x69), (0x81, 0x8F), (0x96, 0x9F), (0xA4, 0xAF),
        (0xB8, 0xB8), (0xBC, 0xFF)] → refuses .readOnly) ∧
    (addr = 0x07#8 → m = .host → refuses .readOnly) ∧
    (among [(0x10, 0x15), (0x3F, 0x3F), (0x5A, 0x5A)] → m = .head → refuses .localOnly) ∧
    (among [(0x03, 0x03), (0x05, 0x05), (0x0F, 0x0F)] → ¬s.owns m .sys → refuses .notOwner) ∧
    (among [(0x20, 0x23), (0x26, 0x29)] → ¬s.owns m .link → refuses .notOwner) ∧
    (among [(0x2B, 0x2D), (0x30, 0x31), (0x6A, 0x80)] → ¬s.owns m .outbox → refuses .notOwner) ∧
    (among [(0x41, 0x42), (0x61, 0x63)] → ¬s.owns m .inbox → refuses .notOwner) ∧
    (among [(0x90, 0x95), (0xA0, 0xA3)] → ¬s.owns m .input → refuses .notOwner) ∧
    (among [(0xB1, 0xB7), (0xBB, 0xBB)] → ¬s.owns m .lamp → refuses .notOwner) ∧
    (s.owns m .sys →
      (addr = 0x03#8 → 3 ≤ v.toNat → refuses .range) ∧
      (addr = 0x05#8 → v ≠ 1#8 → refuses .range)) ∧
    (s.owns m .link →
      (addr = 0x21#8 → s.linkOn = true → v.setWidth 5 ≠ s.link.addr → refuses .busy) ∧
      (addr = 0x21#8 → (s.linkOn = false ∨ v.setWidth 5 = s.link.addr) → v.setWidth 5 = 31#5 → refuses .range) ∧
      (addr = 0x23#8 → 16 ≤ v.toNat → refuses .range) ∧
      (among [(0x26, 0x29)] → v ≠ 0#8 → refuses .range)) ∧
    (s.owns m .outbox →
      (addr = 0x2B#8 → 7 ≤ v.toNat → refuses .range) ∧
      (addr = 0x2C#8 → 16 ≤ v.toNat → refuses .range) ∧
      (addr = 0x2D#8 → (v = 0#8 ∨ 7 ≤ v.toNat) → refuses .range) ∧
      (addr = 0x31#8 → 2 ≤ v.toNat → refuses .range) ∧
      (addr = 0x6A#8 → (v = 0#8 ∨ 4 ≤ v.toNat) → refuses .range) ∧
      (among [(0x6B, 0x6C)] → v ≠ 0#8 → refuses .range) ∧
      (addr = 0x6D#8 → 64 ≤ v.toNat → refuses .range) ∧
      (addr = 0x6E#8 → 17 ≤ v.toNat → refuses .range)) ∧
    (s.owns m .inbox →
      (addr = 0x41#8 → v ≠ 0#8 → v ≠ 3#8 → refuses .range) ∧
      (addr = 0x42#8 → v ≠ 0#8 → refuses .range) ∧
      (addr = 0x62#8 → 64 ≤ v.toNat → refuses .range)) ∧
    (s.owns m .input →
      (addr = 0x91#8 →
        (s.ks.en = true → (v.extractLsb' 4 3 ≠ s.ks.drives ∨ v.extractLsb' 0 3 ≠ s.ks.senses) → refuses .busy) ∧
        ((s.ks.en = false ∨ (v.extractLsb' 4 3 = s.ks.drives ∧ v.extractLsb' 0 3 = s.ks.senses)) →
          (v.extractLsb' 0 3 = 6#3 ∨ v.extractLsb' 0 3 = 7#3) → refuses .range)) ∧
      (addr = 0x92#8 → (v = 0#8 ∨ 17 ≤ v.toNat) → refuses .range) ∧
      (addr = 0x93#8 → (v = 0#8 ∨ 9 ≤ v.toNat) → refuses .range) ∧
      (∀ n : Fin 4, addr = 0xA0#8 + BitVec.ofNat 8 n.val →
        let i := s.st.inputs[n]
        let edge := match i.edge with | .rise => 0#2 | .fall => 1#2 | .both => 2#2
        (i.en = true → (v.extractLsb' 1 2 ≠ edge ∨ v.extractLsb' 4 4 ≠ i.debounce) → refuses .busy) ∧
        ((i.en = false ∨ (v.extractLsb' 1 2 = edge ∧ v.extractLsb' 4 4 = i.debounce)) →
          (v.extractLsb' 1 2 = 3#2 ∨ v.extractLsb' 4 4 = 0#4) → refuses .range))) ∧
    (s.owns m .lamp →
      (addr = 0xB1#8 → 3 ≤ v.toNat → refuses .range) ∧
      (among [(0xB3, 0xB4), (0xB7, 0xB7)] → v = 0#8 → refuses .range) ∧
      (addr = 0xBB#8 → v ≠ 0#8 → refuses .range)) ∧
    (addr = 0x60#8 → 8 ≤ v.toNat → refuses .range) ∧
    (addr = 0x68#8 → 6 ≤ v.toNat → refuses .range) ∧
    (addr = 0xB0#8 → 12 ≤ v.toNat → refuses .range) ∧
    (addr = 0xB9#8 → 16 ≤ v.toNat → refuses .range) ∧
    (addr = 0xBA#8 →
      let ctrl := s.lm.lamps[(s.copies m).lsel].ctrl
      let excluded : Prop := (ctrl = .localOnly ∧ m = .head) ∨ (ctrl = .remoteOnly ∧ m = .host)
      (excluded → refuses .notOwner) ∧ (¬excluded → 5 ≤ v.toNat → refuses .range))

/-! ### Ownership -/

/-- R53, R54, R55: a write of OWNER is judged bit by bit. The host may not reclaim a locked group and the head may not seize one
in the hosted arrangement: then the whole write is refused NOT_OWNER. Else OWNER takes the written value, and RLOCK keeps no bit
of a group of the host. R55, R56: a remote write of RLOCK that locks a group which the head does not own is refused NOT_OWNER;
else RLOCK takes the written value, with 0 for each group of the host. -/
def Obligations.OwnershipWrites : Prop :=
  (∀ (v : Byte) (s : State),
     let written (m : Master) : State := { s.opened m with
       own.owner := v.setWidth 6, own.rlock := s.own.rlock &&& v.setWidth 6 }
     (s.writeReady .host 0x06#8 →
       ((∃ n : Fin 6, s.own.owner.getLsbD n.val = true ∧ v.getLsbD n.val = false ∧ s.own.rlock.getLsbD n.val = true) →
         exec (.grant v) s = .next (s.refusedWrite .host 0x06#8 .notOwner) ∧
         exec (.reclaim v) s = .next (s.refusedWrite .host 0x06#8 .notOwner)) ∧
       ((∀ n : Fin 6, s.own.owner.getLsbD n.val = true → v.getLsbD n.val = false → s.own.rlock.getLsbD n.val = false) →
         exec (.grant v) s = .next (State.closed .host (written .host)) ∧
         exec (.reclaim v) s = .next (State.closed .host (written .host)))) ∧
     (s.writeReady .head 0x06#8 →
       (s.pr.straps.hostless = false →
         (∃ n : Fin 6, s.own.owner.getLsbD n.val = false ∧ v.getLsbD n.val = true) →
         exec (.giveBack v) s = .next (s.refusedWrite .head 0x06#8 .notOwner) ∧
         exec (.seize v) s = .next (s.refusedWrite .head 0x06#8 .notOwner)) ∧
       ((s.pr.straps.hostless = true ∨
           ∀ n : Fin 6, v.getLsbD n.val = true → s.own.owner.getLsbD n.val = true) →
         exec (.giveBack v) s = .next (State.closed .head (written .head)) ∧
         exec (.seize v) s = .next (State.closed .head (written .head))))) ∧
  (∀ (v : Byte) (s : State), s.writeReady .head 0x07#8 →
     ((∃ n : Fin 6, s.own.rlock.getLsbD n.val = false ∧ v.getLsbD n.val = true ∧ s.own.owner.getLsbD n.val = false) →
       exec (.lock v) s = .next (s.refusedWrite .head 0x07#8 .notOwner) ∧
       exec (.unlock v) s = .next (s.refusedWrite .head 0x07#8 .notOwner)) ∧
     ((∀ n : Fin 6, s.own.rlock.getLsbD n.val = false → v.getLsbD n.val = true → s.own.owner.getLsbD n.val = true) →
       exec (.lock v) s = .next (State.closed .head { s.heard with own.rlock := v.setWidth 6 &&& s.own.owner }) ∧
       exec (.unlock v) s = .next (State.closed .head { s.heard with own.rlock := v.setWidth 6 &&& s.own.owner })))

/-! ### Power, local time, flags and counters -/

/-- R51, R186: POWER takes the written request, and the power state follows it: RUN, DOZE, or SETTLING for SLEEP; the owner of
SYS alone may write it. R16, R157: a LOCALTIME byte below 0x0F goes into the writer's staging whoever owns SYS; the byte at 0x0F
commits the staged value with it to local time for the owner of SYS, and is refused NOT_OWNER else. -/
def Obligations.PowerAndTimeWrites : Prop :=
  (∀ (m : Master) (s : State), s.writeReady m 0x03#8 →
     (s.owns m .sys →
       exec (.requestRun m) s = .next (State.closed m { s.opened m with pr.power := 0, pr.state := .run }) ∧
       exec (.requestDoze m) s = .next (State.closed m { s.opened m with pr.power := 1, pr.state := .doze }) ∧
       exec (.requestSleep m) s = .next (State.closed m { s.opened m with pr.power := 2, pr.state := .settling })) ∧
     (¬s.owns m .sys →
       exec (.requestRun m) s = .next (s.refusedWrite m 0x03#8 .notOwner) ∧
       exec (.requestDoze m) s = .next (s.refusedWrite m 0x03#8 .notOwner) ∧
       exec (.requestSleep m) s = .next (s.refusedWrite m 0x03#8 .notOwner))) ∧
  (∀ (m : Master) (v : Byte) (s : State),
     let staged (i : Fin 4) : State := match m with
       | .host => { s with host.time := s.host.time.set i v }
       | .head => { s.heard with head.time := s.head.time.set i v }
     let t := (s.copies m).time
     (∀ i : Fin 3, s.writeReady m (0x0C#8 + BitVec.ofNat 8 i.val) →
       exec (.localtimeStage m i v) s = .next (State.closed m (staged (Fin.castSucc i)))) ∧
     (s.writeReady m 0x0F#8 →
       (s.owns m .sys → exec (.localtimeCommit m v) s = .next (State.closed m { staged 3 with
         st.localTime := t[0] ++ t[1] ++ t[2] ++ v })) ∧
       (¬s.owns m .sys → exec (.localtimeCommit m v) s = .next (s.refusedWrite m 0x0F#8 .notOwner))))

/-- R22, R179, R180: a local W1C write clears the event flags or bitmap bits written 1 and no others; clearing REFUSED also
makes REFCOUNT 0, with REFADDR and REFCAUSE kept. R13, R19, R29, R110, R128, R174: 0x00 written to a CL counter by the owner of
its group clears that counter alone; any other value is refused RANGE, and a write by the other master NOT_OWNER. -/
def Obligations.FlagAndCounterClears : Prop :=
  (∀ (v : Byte) (s : State),
     let cleared (w : Byte) : State := { s with
       ia.flags0 := s.ia.flags0 &&& ~~~w, rc.count := if w.getLsbD 0 then 0 else s.rc.count }
     (s.writeReady .host 0x10#8 →
       exec (.flagClear .iflags0 v) s = .next (State.closed .host (cleared v)) ∧
       exec (.refusedClear v) s = .next (State.closed .host (cleared (v ||| 1#8)))) ∧
     (s.writeReady .host 0x11#8 →
       exec (.flagClear .iflags1 v) s = .next (State.closed .host { s with ia.flags1 := s.ia.flags1 &&& ~~~v })) ∧
     (s.writeReady .host 0x14#8 →
       exec (.bitmapClear .mbDoneMap v) s = .next (State.closed .host { s with ia.mbDone := s.ia.mbDone &&& ~~~v })) ∧
     (s.writeReady .host 0x15#8 →
       exec (.bitmapClear .fHitMap v) s = .next (State.closed .host { s with ia.fHit := s.ia.fHit &&& ~~~v }))) ∧
  (∀ (m : Master) (v : Byte) (s : State),
     let o := s.opened m
     let i := (s.copies m).mbsel
     let box := s.ob.boxes[i]
     let judged (c : CounterReg) (addr : Byte) (g : Group) (u : State) : Prop :=
       s.writeReady m addr →
         (s.owns m g → v = 0#8 → exec (.counterClear m c v) s = .next (State.closed m u)) ∧
         (s.owns m g → v ≠ 0#8 → exec (.counterClear m c v) s = .next (s.refusedWrite m addr .range)) ∧
         (¬s.owns m g → exec (.counterClear m c v) s = .next (s.refusedWrite m addr .notOwner))
     judged .crcErr 0x26#8 .link { o with link.crcErr := 0 } ∧
     judged .formErr 0x27#8 .link { o with link.formErr := 0 } ∧
     judged .collide 0x28#8 .link { o with link.collide := 0 } ∧
     judged .unknown 0x29#8 .link { o with link.unknown := 0 } ∧
     judged .iqDrops 0x42#8 .inbox { o with ib.drops := 0 } ∧
     judged .mbDrops 0x6B#8 .outbox { o with ob.boxes := s.ob.boxes.set i { box with drops := 0 } } ∧
     judged .mbStales 0x6C#8 .outbox { o with ob.boxes := s.ob.boxes.set i { box with stales := 0 } } ∧
     judged .lDeny 0xBB#8 .lamp { o with lm.ldeny := 0 })

/-! ### Link, takes and mailboxes -/

/-- R20, R38, R40, R41, R88: LINKCTL. EN 1 written while it was 0 enters LISTEN with the turns reset, the timers stopped and the
receiver awaiting idle; EN 0 written while it was 1 cuts off any reply, returns the item in flight, clears the journal's remote
wants and lost counter and RLOCK, and enters OFF; both set LINKCHG. RATE may change only while the link is OFF. The model's are
a stopped watchdog's count of 0 (log 17), and that the receiver awaits idle with an idle measure of 0 while OFF after a disable
(DESIGN CHOICE: log 24). -/
def Obligations.LinkEnableAndDisable : Prop :=
  ∀ (m : Master) (v : Byte) (s : State), s.writeReady m 0x20#8 →
    let o := s.opened m
    let rate := v.extractLsb' 1 2
    let sameEn (b : Bool) : State := { o with link.rate := rate, link.en := b }
    (s.owns m .link → (s.linkOn = false ∨ rate = s.link.rate) →
      (s.link.en = false →
        exec (.linkEnable m v) s = .next (State.closed m { o with
          link := { s.link with
            en := true, rate := rate, state := .listen, watchdog := 0, quiet := .stopped, rx := Receiver.awaiting }
          ob.nextTurn := 0, ib.lastTurn := 7, ia.flags0 := s.ia.flags0 ||| linkChg }) ∧
        exec (.linkDisable m v) s = .next (State.closed m (sameEn false))) ∧
      (s.link.en = true →
        exec (.linkEnable m v) s = .next (State.closed m (sameEn true)) ∧
        exec (.linkDisable m v) s = .next (State.closed m { o with
          link := { s.link with
            en := false, rate := rate, state := .off, watchdog := 0, quiet := .stopped, rx := Receiver.awaiting, tx := .idle }
          ob := { s.returnToSource.ob with nextTurn := 0 }
          ib.lastTurn := 7
          jr := { s.returnToSource.jr with
            list := (s.returnToSource.jr.list.map fun r => { r with wantRemote := false }).filter fun r => r.wantLocal
            remoteLost := 0 }
          own.rlock := 0
          ia.flags0 := s.ia.flags0 ||| linkChg }))) ∧
    (s.owns m .link → s.linkOn = true → rate ≠ s.link.rate →
      exec (.linkEnable m v) s = .next (s.refusedWrite m 0x20#8 .busy) ∧
      exec (.linkDisable m v) s = .next (s.refusedWrite m 0x20#8 .busy)) ∧
    (¬s.owns m .link →
      exec (.linkEnable m v) s = .next (s.refusedWrite m 0x20#8 .notOwner) ∧
      exec (.linkDisable m v) s = .next (s.refusedWrite m 0x20#8 .notOwner))

/-- R73, R74, R76, R77: a JTAKE that names the presented record's seq clears its want_local, removes it if it has no want left,
and presents the next record with want_local, which takes the local lost counter; any other take is refused MISMATCH, and a
write by the head LOCAL_ONLY. -/
def Obligations.JournalTake : Prop :=
  (∀ (v : Byte) (s : State), s.writeReady .host 0x3F#8 →
     (∀ (older newer : List JRecord) (r : JRecord), s.jr.list = older ++ r :: newer →
       (∀ x ∈ older, x.wantLocal = false) → r.wantLocal = true →
       (v = r.seq →
         let more := newer.any (·.wantLocal)
         exec (.jtake v) s = .next (State.closed .host { s with jr := { s.jr with
           list := older ++ (if r.wantRemote then [{ r with wantLocal := false }] else []) ++ newer
           presentedLoss := if more then s.jr.localLost else 0
           localLost := if more then 0 else s.jr.localLost } })) ∧
       (v ≠ r.seq → exec (.jtake v) s = .next (s.refusedWrite .host 0x3F#8 .mismatch))) ∧
     ((∀ x ∈ s.jr.list, x.wantLocal = false) →
       exec (.jtake v) s = .next (s.refusedWrite .host 0x3F#8 .mismatch))) ∧
  (∀ (v : Byte) (s : State), s.writeReady .head 0x3F#8 →
    exec (.registerWrite .head 0x3F#8 v) s = .next (s.refusedWrite .head 0x3F#8 .localOnly))

/-- R126, R127: an IQTAKE that names the tag of the oldest record of the inbound queue removes that record and changes nothing
else; any other take, and any take of an empty queue, is refused MISMATCH, and a write by the head LOCAL_ONLY. -/
def Obligations.InboundTake : Prop :=
  (∀ (v : Byte) (s : State), s.writeReady .host 0x5A#8 →
     (∀ (r : IqRecord) (rest : List IqRecord), s.ib.queue = r :: rest →
       (v = r.tag → exec (.iqtake v) s = .next (State.closed .host { s with ib.queue := rest })) ∧
       (v ≠ r.tag → exec (.iqtake v) s = .next (s.refusedWrite .host 0x5A#8 .mismatch))) ∧
     (s.ib.queue = [] → exec (.iqtake v) s = .next (s.refusedWrite .host 0x5A#8 .mismatch))) ∧
  (∀ (v : Byte) (s : State), s.writeReady .head 0x5A#8 →
    exec (.registerWrite .head 0x5A#8 v) s = .next (s.refusedWrite .head 0x5A#8 .localOnly))

/-- R17, R94, R95, R96: by the owner of OUTBOX, LOAD and ARM act on an EMPTY mailbox and are refused BUSY else; CANCEL acts in
every state; the staging bytes change the writer's staging alone. -/
def Obligations.MailboxCommands : Prop :=
  ∀ (m : Master) (s : State), s.owns m .outbox →
    let o := s.opened m
    let i := (s.copies m).mbsel
    let b := s.ob.boxes[i]
    let box (x : Mailbox) : State := { o with ob.boxes := s.ob.boxes.set i x }
    let staged (x : Mail) : State := match m with
      | .host => { o with host.mail := x }
      | .head => { o with head.mail := x }
    let mail := (s.copies m).mail
    (s.writeReady m 0x6A#8 →
      (b.state = .empty →
        exec (.load m) s = .next (State.closed m (box { b with mail := mail })) ∧
        (b.mail.period = 0#16 → exec (.arm m) s = .next (State.closed m (box { b with state := .ready, running := false }))) ∧
        (b.mail.period ≠ 0#16 → exec (.arm m) s = .next (State.closed m (box { b with
          state := .ready, running := true, remaining := b.mail.period.toNat * 10 }))) ∧
        exec (.cancel m) s = .next (State.closed m (box { b with running := false }))) ∧
      (b.state ≠ .empty →
        exec (.load m) s = .next (s.refusedWrite m 0x6A#8 .busy) ∧
        exec (.arm m) s = .next (s.refusedWrite m 0x6A#8 .busy)) ∧
      (b.state = .ready → exec (.cancel m) s = .next (State.closed m (box { b with state := .empty, running := false }))) ∧
      (b.state = .offered →
        exec (.cancel m) s = .next (State.closed m (box { b with cancelPending := true, running := false })))) ∧
    ∀ v : Byte,
      (s.writeReady m 0x6D#8 →
        (v.toNat ≤ 63 → exec (.mailboxStage m 0 v) s = .next (State.closed m (staged { mail with chan := v }))) ∧
        (64 ≤ v.toNat → exec (.mailboxStage m 0 v) s = .next (s.refusedWrite m 0x6D#8 .range))) ∧
      (s.writeReady m 0x6E#8 →
        (v.toNat ≤ 16 → exec (.mailboxStage m 1 v) s = .next (State.closed m (staged { mail with len := v }))) ∧
        (17 ≤ v.toNat → exec (.mailboxStage m 1 v) s = .next (s.refusedWrite m 0x6E#8 .range))) ∧
      (s.writeReady m 0x6F#8 →
        exec (.mailboxStage m 2 v) s = .next (State.closed m (staged { mail with period := v ++ mail.period.setWidth 8 }))) ∧
      (s.writeReady m 0x70#8 →
        exec (.mailboxStage m 3 v) s = .next (State.closed m (staged { mail with
          period := mail.period.extractLsb' 8 8 ++ v }))) ∧
      ∀ k : Fin 16, s.writeReady m (0x71#8 + BitVec.ofNat 8 k.val) →
        exec (.mailboxStage m (Fin.natAdd 4 k) v) s = .next (State.closed m (staged { mail with data := mail.data.set k v }))

/-! ### Scanner, sense inputs and lamps -/

/-- R133, R144, R145: SCANCTL by the owner of INPUT. EN 1 written while it was 0 starts the scanner with every key UP and the
scan clock at 0; EN 0 written while it was 1 stops it with a forced release: a KEY_UP of detail 2 for each key in DOWN or LONG,
in order, and the empty set handed to the lamp engine. A write that keeps EN changes SLEEPWAKE alone. R20, R150, R151: SENSECTLn
by the owner of INPUT. A change of EN takes the written fields and leaves the input not primed with level 0 and counter 0; a
write that keeps EN leaves its running state; while EN is 1 a change of EDGE or DEBOUNCE is refused BUSY. -/
def Obligations.InputEnables : Prop :=
  (∀ (m : Master) (v : Byte) (s : State), s.writeReady m 0x90#8 → s.owns m .input →
     let o := s.opened m
     let up (en : Bool) : Scanner := { s.ks with
       en := en, sleepWake := v.getLsbD 1, keys := Vector.replicate 48 Key.up, clock := 0, due := false }
     let released := ((List.finRange 48).filter fun k => (s.ks.keyState k).isCounted).map
       fun k => ({ kind := .keyUp, subject := BitVec.ofNat 8 k.val, detail := 2 } : Event)
     (s.ks.en = false →
       exec (.scannerEnable m v) s = .next (State.closed m { o with ks := up true }) ∧
       exec (.scannerDisable m v) s = .next (State.closed m { o with ks.sleepWake := v.getLsbD 1 })) ∧
     (s.ks.en = true →
       exec (.scannerEnable m v) s = .next (State.closed m { o with ks.sleepWake := v.getLsbD 1 }) ∧
       exec (.scannerDisable m v) s = .next (State.closed m { o with
         ks := up false
         jr := (o.recordAll released).jr
         ia.flags1 := (o.recordAll released).ia.flags1
         lm := s.lm.takeDown 0#48 }))) ∧
  (∀ (m : Master) (n : Fin 4) (v : Byte) (e : Edge) (s : State), s.writeReady m (0xA0#8 + BitVec.ofNat 8 n.val) →
     s.owns m .input → e.code.setWidth 2 = v.extractLsb' 1 2 → v.extractLsb' 4 4 ≠ 0#4 →
     let i := s.st.inputs[n]
     let input (x : SenseInput) : State := { s.opened m with st.inputs := s.st.inputs.set n x }
     let written (en : Bool) : SenseInput := { i with en := en, edge := e, wake := v.getLsbD 3, debounce := v.extractLsb' 4 4 }
     let fresh (en : Bool) : SenseInput := { written en with primed := false, level := false, counter := 0 }
     (i.en = false →
       exec (.senseEnable m n v) s = .next (State.closed m (input (fresh true))) ∧
       exec (.senseDisable m n v) s = .next (State.closed m (input (written false)))) ∧
     (i.en = true → e = i.edge → v.extractLsb' 4 4 = i.debounce →
       exec (.senseEnable m n v) s = .next (State.closed m (input (written true))) ∧
       exec (.senseDisable m n v) s = .next (State.closed m (input (fresh false)))) ∧
     (i.en = true → (e ≠ i.edge ∨ v.extractLsb' 4 4 ≠ i.debounce) →
       exec (.senseEnable m n v) s = .next (s.refusedWrite m (0xA0#8 + BitVec.ofNat 8 n.val) .busy) ∧
       exec (.senseDisable m n v) s = .next (s.refusedWrite m (0xA0#8 + BitVec.ofNat 8 n.val) .busy)))

/-- R165, R167, R168, R169: LGO on the lamp that the writer selects, at the writer's LGOLEVEL: refused NOT_OWNER if the lamp's
controller attribute excludes the writer, and BUSY for a PULSE on a lamp in PULSE; else the lamp takes the op's first phase.
R164, R172: LBIND by the owner of LAMP: the selected lamp is bound to the written key code, and a lamp in FOLLOW follows it at
once. -/
def Obligations.LampCommandsAndBinding : Prop :=
  (∀ (m : Master) (s : State), s.writeReady m 0xBA#8 →
     let n := (s.copies m).lsel
     let l := s.lm.lamps[n]
     let level := (s.copies m).lgoLevel
     let gives (c : Instr) (x : Lamp) : Prop :=
       exec c s = .next (State.closed m { s.opened m with lm.lamps := s.lm.lamps.set n x })
     let excluded : Prop := (l.ctrl = .localOnly ∧ m = .head) ∨ (l.ctrl = .remoteOnly ∧ m = .host)
     (¬excluded →
       gives (.lgoOff m) { l with phase := .off, level := 0, remaining := 0, count := 0 } ∧
       gives (.lgoOn m) { l with phase := .on, level := level, remaining := 0, count := 0 } ∧
       gives (.lgoBlink m) { l with phase := .blinkLit, level := level, remaining := l.lon.toNat * 10, count := l.lcount.toNat } ∧
       (l.phase ≠ .pulseWait → l.phase ≠ .pulseLit →
         (l.ldelay = 0#8 →
           gives (.lgoPulse m) { l with phase := .pulseLit, level := level, remaining := l.lwidth.toNat * 10, count := 0 }) ∧
         (l.ldelay ≠ 0#8 →
           gives (.lgoPulse m) { l with phase := .pulseWait, level := level, remaining := l.ldelay.toNat * 10, count := 0 })) ∧
       ((l.phase = .pulseWait ∨ l.phase = .pulseLit) →
         exec (.lgoPulse m) s = .next (s.refusedWrite m 0xBA#8 .busy)) ∧
       gives (.lgoFollow m) { l with
         phase := if s.lm.down.getLsbD l.bind.toNat then .followLit else .followDark
         level := level, remaining := 0, count := 0 }) ∧
     (excluded →
       exec (.lgoOff m) s = .next (s.refusedWrite m 0xBA#8 .notOwner) ∧
       exec (.lgoOn m) s = .next (s.refusedWrite m 0xBA#8 .notOwner) ∧
       exec (.lgoBlink m) s = .next (s.refusedWrite m 0xBA#8 .notOwner) ∧
       exec (.lgoPulse m) s = .next (s.refusedWrite m 0xBA#8 .notOwner) ∧
       exec (.lgoFollow m) s = .next (s.refusedWrite m 0xBA#8 .notOwner))) ∧
  (∀ (m : Master) (v : Byte) (s : State), s.writeReady m 0xB2#8 → s.owns m .lamp →
     let n := (s.copies m).lsel
     let l := s.lm.lamps[n]
     let gives (x : Lamp) : Prop :=
       exec (.lbindWrite m v) s = .next (State.closed m { s.opened m with lm.lamps := s.lm.lamps.set n x })
     ((l.phase = .followLit ∨ l.phase = .followDark) →
       gives { l with bind := v, phase := if s.lm.down.getLsbD v.toNat then .followLit else .followDark }) ∧
     (l.phase ≠ .followLit → l.phase ≠ .followDark → gives { l with bind := v }))

/-! ### What every step keeps -/

/-- R22, R55: RLOCK holds no 1 for a group of the host, and REFCOUNT is 0 exactly when REFUSED is clear, after every step that
starts so. -/
def Obligations.StepKeepsLocksAndRefusals : Prop :=
  ∀ s t : State, s.locksOwned → s.refusalsCounted → step s = .next t → t.locksOwned ∧ t.refusalsCounted

/-- R4 to R7, R15, R186, R190: the host port's and the power block's relations hold after every step that starts with them. -/
def Obligations.StepKeepsPortAndPower : Prop :=
  ∀ s t : State, s.PortSound → s.PowerSound → step s = .next t → t.PortSound ∧ t.PowerSound

/-- R23, R24, R35, R41, R42, R45, R47, R187: the link engine's conditions agree with each other after every step that starts so.
-/
def Obligations.StepKeepsLink : Prop := ∀ s t : State, s.LinkSound → step s = .next t → t.LinkSound

/-- R91: the relations between the item in flight, the turns, the mailboxes and the batch hold after every step that starts with
them, in a sound link engine. -/
def Obligations.StepKeepsOutbound : Prop :=
  ∀ s t : State, s.LinkSound → s.OutboundSound → step s = .next t → t.OutboundSound

/-- R72 to R74, R78, R80 to R83, R88: the journal's relations hold after every step that starts with them, in a sound link
engine and outbound service. -/
def Obligations.StepKeepsJournal : Prop :=
  ∀ s t : State, s.LinkSound → s.OutboundSound → s.JournalSound → step s = .next t → t.JournalSound

/-- R132, R133, R136, R144, R172: at most four keys are counted, a disabled scanner holds every key UP, the lamp engine holds
the scanner's set of counted keys and every lamp in FOLLOW is in line with it, after every step that starts so. -/
def Obligations.StepKeepsKeys : Prop := ∀ s t : State, s.KeysSound → step s = .next t → t.KeysSound

/-- R124, R150, R162, R164, R171: the relations of the inbound queue, of the sense inputs and of the lamp records hold after
every step that starts with them. -/
def Obligations.StepKeepsRecords : Prop :=
  ∀ s t : State, s.InboxSound → s.inputsSound → s.lampsSound → step s = .next t →
    t.InboxSound ∧ t.inputsSound ∧ t.lampsSound

/-- R193: the state right after reset has all of these relations. -/
def Obligations.ResetIsSound : Prop :=
  State.reset.locksOwned ∧ State.reset.refusalsCounted ∧ State.reset.PortSound ∧ State.reset.PowerSound ∧
    State.reset.LinkSound ∧ State.reset.OutboundSound ∧ State.reset.JournalSound ∧ State.reset.KeysSound ∧
    State.reset.InboxSound ∧ State.reset.inputsSound ∧ State.reset.lampsSound
end

