-- ==== Sys2Proof/Laws/Events.lean ====
section
/-! SUPPORT. What an event step, the steps before it and its end can do. -/

namespace Sys2Proof.Machine

/-! ### Handing records to the journal -/

/-- A record changes the journal and the event flags of IFLAGS1 alone. -/
theorem record_eq (s : State) (e : Event) :
    s.record e = { s with
      jr := (s.jr.handOver s.linkOn s.stamp e).1
      ia.flags1 := if (s.jr.handOver s.linkOn s.stamp e).2 then s.ia.flags1 ||| jLossFlag else s.ia.flags1 } := by
  unfold State.record
  rcases s.jr.handOver s.linkOn s.stamp e with ⟨j, loss⟩
  cases loss <;> rfl

/-- Records change the journal and the event flags of IFLAGS1 alone. -/
theorem recordAll_eq (es : List Event) (s : State) :
    s.recordAll es = { s with jr := (s.recordAll es).jr, ia.flags1 := (s.recordAll es).ia.flags1 } := by
  induction es generalizing s with
  | nil => rfl
  | cons e rest ih =>
    have h := ih (s.record e)
    have hc : s.recordAll (e :: rest) = (s.record e).recordAll rest := rfl
    rw [hc, h, record_eq]

theorem recordAll_nil (s : State) : s.recordAll [] = s := rfl

theorem recordAll_cons (e : Event) (es : List Event) (s : State) : s.recordAll (e :: es) = (s.record e).recordAll es := rfl

theorem recordAll_append (es fs : List Event) (s : State) : s.recordAll (es ++ fs) = (s.recordAll es).recordAll fs := by
  simp [State.recordAll]

@[simp] theorem recordAll_pins (es : List Event) (s : State) : (s.recordAll es).pins = s.pins := by rw [recordAll_eq]
@[simp] theorem recordAll_hp (es : List Event) (s : State) : (s.recordAll es).hp = s.hp := by rw [recordAll_eq]
@[simp] theorem recordAll_host (es : List Event) (s : State) : (s.recordAll es).host = s.host := by rw [recordAll_eq]
@[simp] theorem recordAll_head (es : List Event) (s : State) : (s.recordAll es).head = s.head := by rw [recordAll_eq]
@[simp] theorem recordAll_rc (es : List Event) (s : State) : (s.recordAll es).rc = s.rc := by rw [recordAll_eq]
@[simp] theorem recordAll_link (es : List Event) (s : State) : (s.recordAll es).link = s.link := by rw [recordAll_eq]
@[simp] theorem recordAll_own (es : List Event) (s : State) : (s.recordAll es).own = s.own := by rw [recordAll_eq]
@[simp] theorem recordAll_ob (es : List Event) (s : State) : (s.recordAll es).ob = s.ob := by rw [recordAll_eq]
@[simp] theorem recordAll_ib (es : List Event) (s : State) : (s.recordAll es).ib = s.ib := by rw [recordAll_eq]
@[simp] theorem recordAll_ks (es : List Event) (s : State) : (s.recordAll es).ks = s.ks := by rw [recordAll_eq]
@[simp] theorem recordAll_st (es : List Event) (s : State) : (s.recordAll es).st = s.st := by rw [recordAll_eq]
@[simp] theorem recordAll_lm (es : List Event) (s : State) : (s.recordAll es).lm = s.lm := by rw [recordAll_eq]
@[simp] theorem recordAll_pr (es : List Event) (s : State) : (s.recordAll es).pr = s.pr := by rw [recordAll_eq]
@[simp] theorem recordAll_serial (es : List Event) (s : State) : (s.recordAll es).serial = s.serial := by rw [recordAll_eq]
@[simp] theorem recordAll_pending (es : List Event) (s : State) : (s.recordAll es).pending = s.pending := by
  rw [recordAll_eq]
@[simp] theorem recordAll_flags0 (es : List Event) (s : State) : (s.recordAll es).ia.flags0 = s.ia.flags0 := by
  rw [recordAll_eq]

/-! ### The end of a step (R187) -/

/-- The step ends without entry into SLEEP unless the part is settling. -/
theorem endOfStep_of_not_settling (s : State) (h : s.pr.state ≠ .settling) : s.endOfStep = s := by
  simp [State.endOfStep, State.sleepDue, h]

/-- The step ends without entry into SLEEP while CSN is low. -/
theorem endOfStep_of_csnLow (s : State) (h : s.pins.csnLow = true) : s.endOfStep = s := by
  simp [State.endOfStep, State.sleepDue, State.quiescent, h]

/-- The step ends without entry into SLEEP while a reply is pending or transmitted. -/
theorem endOfStep_of_busy (s : State) (h : s.link.tx ≠ .idle) : s.endOfStep = s := by
  simp [State.endOfStep, State.sleepDue, State.quiescent, h]

/-- At its end a step changes nothing, or the part enters SLEEP from SETTLING with nothing under way. -/
theorem endOfStep_cases (s : State) :
    s.endOfStep = s ∨ (s.pr.state = .settling ∧ s.quiescent = true ∧ s.endOfStep = s.enterSleep) := by
  unfold State.endOfStep State.sleepDue
  split
  · rename_i h
    simp only [Bool.and_eq_true, beq_iff_eq] at h
    exact .inr ⟨h.1, h.2, rfl⟩
  · exact .inl rfl

/-- A forced release changes the journal, the event flags of IFLAGS1, the scanner and the lamp engine alone. -/
theorem forcedRelease_eq (s : State) :
    s.forcedRelease = { s with
      jr := (s.recordAll s.ks.forcedEvents).jr, ia.flags1 := (s.recordAll s.ks.forcedEvents).ia.flags1
      ks := s.ks.allUp, lm := s.lm.takeDown s.ks.allUp.downSet } := by
  unfold State.forcedRelease State.handOverKeys
  rw [recordAll_eq]

/-- Entry into SLEEP with the scanner enabled is a forced release. -/
theorem enterSleep_of_enabled (s : State) (h : s.ks.en = true) :
    s.enterSleep = State.forcedRelease { s with pr.state := .sleep } := if_pos h

/-- Entry into SLEEP with the scanner disabled changes the power state alone. -/
theorem enterSleep_of_disabled (s : State) (h : s.ks.en = false) : s.enterSleep = { s with pr.state := .sleep } :=
  if_neg (by simp [h])

/-- What entry into SLEEP leaves as it was. -/
theorem enterSleep_eq (s : State) :
    s.enterSleep = { s with
      pr.state := .sleep, jr := s.enterSleep.jr, ia.flags1 := s.enterSleep.ia.flags1, ks := s.enterSleep.ks
      lm := s.enterSleep.lm } := by
  cases h : s.ks.en
  · rw [enterSleep_of_disabled s h]
  · rw [enterSleep_of_enabled s h, forcedRelease_eq]

/-- What the end of a step leaves as it was. -/
theorem endOfStep_eq (s : State) :
    s.endOfStep = { s with
      pr.state := s.endOfStep.pr.state, jr := s.endOfStep.jr, ia.flags1 := s.endOfStep.ia.flags1, ks := s.endOfStep.ks
      lm := s.endOfStep.lm } := by
  rcases endOfStep_cases s with h | ⟨-, -, h⟩
  · rw [h]
  · rw [h, enterSleep_eq]

/-! ### The steps that come first (R2) -/

/-- A soft restart leaves the part in RUN, with no restart pending, no scan due and no reply. -/
theorem softRestart_settled (s : State) :
    s.softRestart.restartWaits = false ∧ s.softRestart.oscillatorDue = false ∧ s.softRestart.scanWaits = false :=
  ⟨rfl, rfl, rfl⟩

/-- The end of waking changes the power block, the watchdog, the scan clock, the journal and the event flags of IFLAGS1 alone. -/
theorem finishWake_eq (s : State) :
    s.finishWake = { s with
      pr := s.finishWake.pr, link.watchdog := 0, ks.clock := 0, ks.due := false, jr := s.finishWake.jr
      ia.flags1 := s.finishWake.ia.flags1 } := by
  unfold State.finishWake
  rcases s.pr.request.getD (.key, 0#8) with ⟨c, d⟩
  simp only [State.raise1, record_eq]

/-- The end of waking leaves the part in RUN, with no scan due. -/
theorem finishWake_settled (s : State) : s.finishWake.oscillatorDue = false ∧ s.finishWake.scanWaits = false := by
  have hp : s.finishWake.pr.state = .run := by
    unfold State.finishWake
    rcases s.pr.request.getD (.key, 0#8) with ⟨c, d⟩
    simp only [State.raise1, record_eq]
  refine ⟨by simp [State.oscillatorDue, hp], ?_⟩
  rw [finishWake_eq]
  simp [State.scanWaits]

/-- Where nothing is due, nothing comes first. -/
theorem settle_of_settled {s : State} (h1 : s.restartWaits = false) (h2 : s.oscillatorDue = false)
    (h3 : s.scanWaits = false) : s.settle = s := by
  simp [State.settle, State.takeRestart, State.takeOscillator, State.takeScan, h1, h2, h3]

/-! ### Event steps (R1, R191) -/

/-- No event step is taken while the part is held in reset. -/
theorem eventAfter_of_held {earlier f : State → State} {due : State → Bool} {s : State} (hh : s.held = true) :
    eventAfter earlier due f s = s := by simp [eventAfter, hh]

/-- The part held in reset stays as it is, or the earlier steps are taken and then the event's own, if it is due. -/
theorem eventAfter_cases (earlier : State → State) (due : State → Bool) (f : State → State) (s : State) :
    (s.held = true ∧ eventAfter earlier due f s = s) ∨
      (s.held = false ∧ due (earlier s) = false ∧ eventAfter earlier due f s = earlier s) ∨
      (s.held = false ∧ due (earlier s) = true ∧ eventAfter earlier due f s = (f (earlier s)).endOfStep) := by
  unfold eventAfter
  cases hh : s.held <;> cases hd : due (earlier s) <;> simp

/-- An event whose step is due is taken: its consequences, then the end of the step. -/
theorem onEvent_of_due {due : State → Bool} {f : State → State} {s : State} (hh : s.held = false) (hs : s.settle = s)
    (hd : due s = true) : onEvent due f s = (f s).endOfStep := by simp [onEvent, eventAfter, hh, hs, hd]

/-- An event step that is not due leaves the state unchanged. -/
theorem onEvent_of_not_due {due : State → Bool} {f : State → State} {s : State} (hs : s.settle = s) (hd : due s = false) :
    onEvent due f s = s := by simp [onEvent, eventAfter, hs, hd]

/-- No event step is taken while the part is held in reset. -/
theorem onEvent_of_held {due : State → Bool} {f : State → State} {s : State} (hh : s.held = true) :
    onEvent due f s = s := eventAfter_of_held hh

/-- A moment that comes about has its effect alone. -/
theorem onMoment_of_due {due : State → Bool} {f : State → State} {s : State} (hh : s.held = false) (hs : s.settle = s)
    (hd : due s = true) : onMoment due f s = f s := by simp [onMoment, hh, hs, hd]

/-- The part held in reset stays as it is, or the earlier steps are taken and then the moment has its effect, if it comes about. -/
theorem onMoment_cases (due : State → Bool) (f : State → State) (s : State) :
    (s.held = true ∧ onMoment due f s = s) ∨
      (s.held = false ∧ due s.settle = false ∧ onMoment due f s = s.settle) ∨
      (s.held = false ∧ due s.settle = true ∧ onMoment due f s = f s.settle) := by
  unfold onMoment
  cases hh : s.held <;> cases hd : due s.settle <;> simp

/-- A scan completion that comes about is taken, where no restart and no end of waking comes before it. -/
theorem scanEvent_of_due {due : State → Bool} {keys : BitVec 48} {s : State} (hh : s.held = false)
    (hr : s.restartWaits = false) (ho : s.oscillatorDue = false) (hd : due s = true) :
    scanEvent due keys s = (s.completeScan keys).endOfStep := by
  simp [scanEvent, eventAfter, State.takeRestart, State.takeOscillator, hh, hr, ho, hd]

/-- A scan completion that does not come about leaves the state unchanged, where nothing comes before it. -/
theorem scanEvent_of_not_due {due : State → Bool} {keys : BitVec 48} {s : State} (hr : s.restartWaits = false)
    (ho : s.oscillatorDue = false) (hd : due s = false) : scanEvent due keys s = s := by
  simp [scanEvent, eventAfter, State.takeRestart, State.takeOscillator, hr, ho, hd]

/-! ### Events after the steps that come first -/

/-- An event has the same step in the state in which the earlier steps have been taken. -/
theorem onEvent_of_settle_eq {due : State → Bool} {f : State → State} {s t : State} (hs : s.held = false)
    (ht : t.held = false) (h : s.settle = t) (h' : t.settle = t) : onEvent due f s = onEvent due f t := by
  simp [onEvent, eventAfter, hs, ht, h, h']

/-- A moment has the same effect in the state in which the earlier steps have been taken. -/
theorem onMoment_of_settle_eq {due : State → Bool} {f : State → State} {s t : State} (hs : s.held = false)
    (ht : t.held = false) (h : s.settle = t) (h' : t.settle = t) : onMoment due f s = onMoment due f t := by
  simp [onMoment, hs, ht, h, h']

end Sys2Proof.Machine
end

