-- ==== Sys2Proof/Laws/Frames.lean ====
section
/-! SUPPORT. A frame written out and received is classified by its fields alone: the tests of R27 that concern bytes pass, and
what is left is the tests of its kind, direction, body and address. -/

namespace Sys2Proof.Machine

theorem onLine_length (bs : List Byte) : (onLine bs).length = bs.length := by simp [onLine]

/-- Bytes without a stop fault join the frame in progress, while it has room for all of them. -/
theorem receive_onLine (bs : List Byte) (rx : Receiver) (h : rx.bytes.length + bs.length ≤ Config.frameBytes) :
    (onLine bs).foldl Receiver.receive rx = { rx with bytes := rx.bytes ++ bs } := by
  induction bs generalizing rx with
  | nil => simp [onLine]
  | cons b rest ih =>
    have hb : rx.bytes.length < Config.frameBytes := by simp at h; omega
    have hr : rx.receive { value := b, stopFault := false } = { rx with bytes := rx.bytes ++ [b] } := by
      simp [Receiver.receive, hb]
    have h' : (rx.bytes ++ [b]).length + rest.length ≤ Config.frameBytes := by simp at h ⊢; omega
    simpa [onLine, hr, List.append_assoc] using ih { rx with bytes := rx.bytes ++ [b] } h'

theorem frameHeader_length (dest src : BitVec 5) (kind : BitVec 4) (av : Bool) (tn : BitVec 3) (n : Nat) :
    (frameHeader dest src kind av tn n).length = 4 := by simp [frameHeader]

theorem withCheck_length (bs : List Byte) : (withCheck bs).length = bs.length + 2 := by simp [withCheck]

/-- The address bytes of a frame have bits 7..5 clear. -/
theorem addressByte_top (a : BitVec 5) : (a.setWidth 8).extractLsb' 5 3 = 0#3 := by revert a; decide

/-- The third byte of a frame gives back its KIND, AV and TN. -/
theorem kindByte_kind (kind : BitVec 4) (av : Bool) (tn : BitVec 3) :
    (fieldAt kind 4 ||| bit av 3 ||| fieldAt tn 0).extractLsb' 4 4 = kind := by revert kind av tn; decide

theorem kindByte_av (kind : BitVec 4) (av : Bool) (tn : BitVec 3) :
    (fieldAt kind 4 ||| bit av 3 ||| fieldAt tn 0).getLsbD 3 = av := by revert kind av tn; decide

theorem kindByte_tn (kind : BitVec 4) (av : Bool) (tn : BitVec 3) :
    (fieldAt kind 4 ||| bit av 3 ||| fieldAt tn 0).setWidth 3 = tn := by revert kind av tn; decide

theorem addressByte_back (a : BitVec 5) : (a.setWidth 8).setWidth 5 = a := by revert a; decide

theorem kindOf_code (k : FrameKind) : kindOf k.code = some k := by cases k <;> rfl

/-- What is left of R27 for a frame with a correct layout and CHECK: tests 7 to 10. -/
theorem classify_laid_out (own dest src : BitVec 5) (kind : BitVec 4) (av : Bool) (tn : BitVec 3) (body : List Byte)
    (h : body.length ≤ 48) :
    classify own { Receiver.start with bytes := withCheck (frameHeader dest src kind av tn body.length ++ body) } =
      match kindOf kind with
      | none => .unknownKind
      | some k =>
        let f : Frame := { dest := dest, src := src, kind := k, av := av, tn := tn, body := body }
        if !f.directionOk then .badFormat
        else if !f.bodyOk then .badFormat
        else if !f.addressed own then .misdirected
        else .valid f := by
  have hl : (BitVec.ofNat 8 body.length).toNat = body.length := by simp; omega
  simp only [classify, withCheck, frameHeader, Receiver.start, List.cons_append, List.nil_append, List.length_cons,
    List.length_append, List.length_nil, hl, Bool.false_eq_true, if_false]
  rw [if_neg (by omega), if_neg (by omega)]
  simp only [Bool.false_or, bne_iff_ne, ne_eq]
  rw [if_neg (by omega)]
  simp only [List.take_left', List.drop_left', not_true_eq_false, if_false]
  simp only [classifyHeader, addressByte_top, kindByte_kind, kindByte_av, kindByte_tn, addressByte_back, bne_self_eq_false,
    Bool.or_false, Bool.false_eq_true, if_false]
  all_goals (cases kindOf kind <;> rfl)

/-- Every frame that a node writes out is classified by its direction, body and address (R28). -/
theorem classify_frame (own : BitVec 5) (f : Frame) (h : f.body.length ≤ 48) :
    classify own ((onLine f.bytes).foldl Receiver.receive Receiver.start) =
      if !f.directionOk then .badFormat
      else if !f.bodyOk then .badFormat
      else if !f.addressed own then .misdirected
      else .valid f := by
  rw [receive_onLine]
  · simp only [Frame.bytes, Receiver.start, List.nil_append]
    exact (classify_laid_out own f.dest f.src f.kind.code f.av f.tn f.body h).trans (by rw [kindOf_code])
  · simp only [Frame.bytes, withCheck_length, List.length_append, frameHeader_length, Receiver.start, List.length_nil,
      Config.frameBytes]; omega

/-! ### R28's rules as propositions -/

/-- The direction test is the direction rule. -/
theorem directionOk_iff (f : Frame) : f.directionOk = true ↔ f.directionRule := by
  unfold Frame.directionOk Frame.directionRule
  cases f.kind <;> simp [FrameKind.fromHead, FrameKind.code]
  all_goals tauto

/-- The body test is the body rule. -/
theorem bodyOk_iff (f : Frame) : f.bodyOk = true ↔ f.bodyRule := by
  unfold Frame.bodyOk Frame.bodyRule
  cases f.kind <;> simp
  all_goals tauto

/-- The addressing test fails exactly for a misdirected frame. -/
theorem addressed_false_iff (own : BitVec 5) (f : Frame) : f.addressed own = false ↔ f.misdirectedAt own := by
  unfold Frame.addressed Frame.misdirectedAt Frame.neverBroadcast
  cases f.kind <;> simp [FrameKind.fromHead, FrameKind.code]
  all_goals
    by_cases h0 : f.dest = 0#5 <;> by_cases h1 : f.dest = 31#5 <;> by_cases h2 : f.dest = own <;> simp_all

end Sys2Proof.Machine
end

