-- ==== Sys2Proof/Laws/Scan.lean ====
section
/-! SUPPORT. What one stage of a scan can do: a stage that treats each key by itself touches a key only when it reaches it, and
the records it makes about a key are those it makes then. -/

namespace Sys2Proof.Machine

/-- The records about key `k` among these. -/
def eventsAbout (k : Fin 48) (es : List Event) : List Event := es.filter fun e => e.subject == BitVec.ofNat 8 k.val

/-- A stage treats each key by itself: taking key `j` changes no other key and no setting, and adds records about `j` alone. -/
structure StageLocal (f : Stage → Fin 48 → Stage) : Prop where
  others : ∀ acc j (k : Fin 48), k ≠ j → (f acc j).1.keys[k] = acc.1.keys[k]
  settings : ∀ acc j, (f acc j).1 = { acc.1 with keys := (f acc j).1.keys }
  events : ∀ acc j, ∃ es, (f acc j).2 = acc.2 ++ es ∧ ∀ e ∈ es, e.subject = BitVec.ofNat 8 j.val

/-- Distinct key codes are distinct as bytes. -/
theorem keyCode_ne {j k : Fin 48} (h : j ≠ k) : BitVec.ofNat 8 j.val ≠ BitVec.ofNat 8 k.val := by
  intro hb
  have := congrArg BitVec.toNat hb
  simp at this
  omega

/-- Records about another key are not records about `k`. -/
theorem eventsAbout_other {j k : Fin 48} (h : j ≠ k) {es : List Event} (hes : ∀ e ∈ es, e.subject = BitVec.ofNat 8 j.val) :
    eventsAbout k es = [] := by
  simp only [eventsAbout, List.filter_eq_nil_iff, beq_iff_eq]
  intro e he
  rw [hes e he]
  exact keyCode_ne h

/-- Taking keys other than `k` leaves key `k` and the records about it as they were. -/
theorem foldl_other {f : Stage → Fin 48 → Stage} (hf : StageLocal f) (k : Fin 48) (ks : List (Fin 48)) (hk : k ∉ ks)
    (acc : Stage) :
    (ks.foldl f acc).1.keys[k] = acc.1.keys[k] ∧ eventsAbout k (ks.foldl f acc).2 = eventsAbout k acc.2 := by
  induction ks generalizing acc with
  | nil => exact ⟨rfl, rfl⟩
  | cons j rest ih =>
    rw [List.mem_cons, not_or] at hk
    obtain ⟨h1, h2⟩ := ih hk.2 (f acc j)
    obtain ⟨es, he, hs⟩ := hf.events acc j
    refine ⟨h1.trans (hf.others acc j k hk.1), h2.trans ?_⟩
    rw [he, eventsAbout, List.filter_append]
    exact (congrArg _ (eventsAbout_other (Ne.symm hk.1) hs)).trans (List.append_nil _)

/-- Taking keys leaves every setting as it was. -/
theorem foldl_settings {f : Stage → Fin 48 → Stage} (hf : StageLocal f) (ks : List (Fin 48)) (acc : Stage) :
    (ks.foldl f acc).1 = { acc.1 with keys := (ks.foldl f acc).1.keys } := by
  induction ks generalizing acc with
  | nil => rfl
  | cons j rest ih =>
    rw [List.foldl_cons, ih (f acc j), hf.settings acc j]

/-- The keys in ascending key code, around key `k`. -/
theorem finRange_split (k : Fin 48) :
    List.finRange 48 = (List.finRange 48).filter (· < k) ++ k :: (List.finRange 48).filter (k < ·) := by
  revert k; decide

/-- A whole stage, as key `k` sees it: the key and its records are as taking it left them. -/
theorem overKeys_at {f : Stage → Fin 48 → Stage} (hf : StageLocal f) (k : Fin 48) (acc : Stage) :
    let pre := ((List.finRange 48).filter (· < k)).foldl f acc
    (overKeys f acc).1.keys[k] = (f pre k).1.keys[k] ∧ eventsAbout k (overKeys f acc).2 = eventsAbout k (f pre k).2 ∧
      pre.1.keys[k] = acc.1.keys[k] ∧ eventsAbout k pre.2 = eventsAbout k acc.2 ∧
      pre.1 = { acc.1 with keys := pre.1.keys } := by
  intro pre
  have hs : overKeys f acc = ((List.finRange 48).filter (k < ·)).foldl f (f pre k) := by
    rw [overKeys]
    conv_lhs => rw [finRange_split k]
    rw [List.foldl_append, List.foldl_cons]
  have ha := foldl_other hf k ((List.finRange 48).filter (k < ·)) (by simp) (f pre k)
  have hb := foldl_other hf k ((List.finRange 48).filter (· < k)) (by simp) acc
  rw [hs]
  exact ⟨ha.1, ha.2, hb.1, hb.2, foldl_settings hf _ _⟩

/-- A whole stage leaves every setting as it was. -/
theorem overKeys_settings {f : Stage → Fin 48 → Stage} (hf : StageLocal f) (acc : Stage) :
    (overKeys f acc).1 = { acc.1 with keys := (overKeys f acc).1.keys } := foldl_settings hf _ _

theorem setKey_other (ks : Scanner) (j k : Fin 48) (key : Key) (h : k ≠ j) : (ks.setKey j key).keys[k] = ks.keys[k] := by
  have : j.val ≠ k.val := fun hv => h (Fin.ext hv.symm)
  simp [Scanner.setKey, this]

theorem setKey_same (ks : Scanner) (k : Fin 48) (key : Key) : (ks.setKey k key).keys[k] = key := by simp [Scanner.setKey]

theorem stageLocal_id : StageLocal fun acc _ => acc :=
  ⟨fun _ _ _ _ => rfl, fun _ _ => rfl, fun _ _ => ⟨[], by simp, by simp⟩⟩

/-- Replacing key `j` and adding records about it is local. -/
theorem local_of_setKey (acc : Stage) (j : Fin 48) (key : Key) (es : List Event)
    (hes : ∀ e ∈ es, e.subject = BitVec.ofNat 8 j.val) :
    (∀ k : Fin 48, k ≠ j → (acc.1.setKey j key).keys[k] = acc.1.keys[k]) ∧
      acc.1.setKey j key = { acc.1 with keys := (acc.1.setKey j key).keys } ∧
      ∃ fs, acc.2 ++ es = acc.2 ++ fs ∧ ∀ e ∈ fs, e.subject = BitVec.ofNat 8 j.val :=
  ⟨fun k hk => setKey_other acc.1 j k key hk, rfl, es, rfl, hes⟩

/-- A function that at each key either changes nothing, or replaces that key and adds records about it, is local. -/
theorem stageLocal_of {f : Stage → Fin 48 → Stage}
    (h : ∀ acc j, f acc j = acc ∨ ∃ key es, f acc j = (acc.1.setKey j key, acc.2 ++ es) ∧
      ∀ e ∈ es, e.subject = BitVec.ofNat 8 j.val) : StageLocal f := by
  refine ⟨fun acc j k hk => ?_, fun acc j => ?_, fun acc j => ?_⟩ <;> rcases h acc j with h | ⟨key, es, h, hes⟩ <;> rw [h]
  · exact setKey_other acc.1 j k key hk
  · rfl
  · exact ⟨[], by simp, by simp⟩
  · exact ⟨es, rfl, hes⟩

/-- What admitting a key does. -/
theorem admitKey_eq (acc : Stage) (j : Fin 48) :
    ∃ key es, admitKey acc j = (acc.1.setKey j key, acc.2 ++ es) ∧ ∀ e ∈ es, e.subject = BitVec.ofNat 8 j.val := by
  unfold admitKey
  dsimp only
  split
  · exact ⟨_, _, rfl, by simp [keyEvent]⟩
  · exact ⟨acc.1.keys[j].fresh .blocked, [], by simp, by simp⟩

theorem releaseKey_local (flipped : Fin 48 → Bool) : StageLocal (releaseKey flipped) := by
  refine stageLocal_of fun acc j => ?_
  unfold releaseKey
  dsimp only
  split
  · refine .inr ⟨_, _, rfl, ?_⟩
    cases acc.1.keys[j].state <;> simp [releaseEvents, keyEvent]
  · exact .inl rfl

theorem reviewKey_local : StageLocal reviewKey := by
  refine stageLocal_of fun acc j => ?_
  unfold reviewKey
  split
  · split
    · exact .inl rfl
    · exact .inr (admitKey_eq acc j)
  · split
    · exact .inl rfl
    · exact .inr (admitKey_eq acc j)
  all_goals exact .inl rfl

theorem pressKey_local (flipped : Fin 48 → Bool) : StageLocal (pressKey flipped) := by
  refine stageLocal_of fun acc j => ?_
  unfold pressKey
  dsimp only
  split
  · split
    · exact .inr ⟨_, _, rfl, by simp [keyEvent]⟩
    · exact .inr (admitKey_eq acc j)
  · exact .inl rfl

theorem timeKey_local (wasCounted : Fin 48 → Bool) (len : Nat) : StageLocal (timeKey wasCounted len) := by
  refine stageLocal_of fun acc j => ?_
  unfold timeKey
  dsimp only
  split
  · split
    · exact .inl rfl
    · split
      · exact .inr ⟨_, _, rfl, by simp [keyEvent]⟩
      · exact .inr ⟨{ acc.1.keys[j] with hold := satTime acc.1.keys[j].hold len }, [], by simp, by simp⟩
  · split
    · exact .inl rfl
    · split
      · exact .inr ⟨_, _, rfl, by simp [keyEvent]⟩
      · refine .inr ⟨_, [], by rw [List.append_nil], by simp⟩
  all_goals exact .inl rfl

end Sys2Proof.Machine
end

