-- ==== Sys2Proof/Laws/State.lean ====
section
/-! SUPPORT. One lemma per field and update of the operations that change State directly (Machine/Ops.lean). -/

namespace Sys2Proof.Machine

@[simp] theorem raise0_pins (m : Byte) (s : State) : (s.raise0 m).pins = s.pins := rfl
@[simp] theorem raise0_hp (m : Byte) (s : State) : (s.raise0 m).hp = s.hp := rfl
@[simp] theorem raise0_host (m : Byte) (s : State) : (s.raise0 m).host = s.host := rfl
@[simp] theorem raise0_head (m : Byte) (s : State) : (s.raise0 m).head = s.head := rfl
@[simp] theorem raise0_rc (m : Byte) (s : State) : (s.raise0 m).rc = s.rc := rfl
@[simp] theorem raise0_link (m : Byte) (s : State) : (s.raise0 m).link = s.link := rfl
@[simp] theorem raise0_own (m : Byte) (s : State) : (s.raise0 m).own = s.own := rfl
@[simp] theorem raise0_jr (m : Byte) (s : State) : (s.raise0 m).jr = s.jr := rfl
@[simp] theorem raise0_ob (m : Byte) (s : State) : (s.raise0 m).ob = s.ob := rfl
@[simp] theorem raise0_ib (m : Byte) (s : State) : (s.raise0 m).ib = s.ib := rfl
@[simp] theorem raise0_ks (m : Byte) (s : State) : (s.raise0 m).ks = s.ks := rfl
@[simp] theorem raise0_st (m : Byte) (s : State) : (s.raise0 m).st = s.st := rfl
@[simp] theorem raise0_lm (m : Byte) (s : State) : (s.raise0 m).lm = s.lm := rfl
@[simp] theorem raise0_pr (m : Byte) (s : State) : (s.raise0 m).pr = s.pr := rfl
@[simp] theorem raise0_serial (m : Byte) (s : State) : (s.raise0 m).serial = s.serial := rfl
@[simp] theorem raise0_pending (m : Byte) (s : State) : (s.raise0 m).pending = s.pending := rfl
@[simp] theorem raise0_flags0 (m : Byte) (s : State) : (s.raise0 m).ia.flags0 = s.ia.flags0 ||| m := rfl
@[simp] theorem raise0_flags1 (m : Byte) (s : State) : (s.raise0 m).ia.flags1 = s.ia.flags1 := rfl
@[simp] theorem raise0_enable0 (m : Byte) (s : State) : (s.raise0 m).ia.enable0 = s.ia.enable0 := rfl
@[simp] theorem raise0_enable1 (m : Byte) (s : State) : (s.raise0 m).ia.enable1 = s.ia.enable1 := rfl
@[simp] theorem raise0_mbDone (m : Byte) (s : State) : (s.raise0 m).ia.mbDone = s.ia.mbDone := rfl
@[simp] theorem raise0_fHit (m : Byte) (s : State) : (s.raise0 m).ia.fHit = s.ia.fHit := rfl

@[simp] theorem raise1_pins (m : Byte) (s : State) : (s.raise1 m).pins = s.pins := rfl
@[simp] theorem raise1_hp (m : Byte) (s : State) : (s.raise1 m).hp = s.hp := rfl
@[simp] theorem raise1_host (m : Byte) (s : State) : (s.raise1 m).host = s.host := rfl
@[simp] theorem raise1_head (m : Byte) (s : State) : (s.raise1 m).head = s.head := rfl
@[simp] theorem raise1_rc (m : Byte) (s : State) : (s.raise1 m).rc = s.rc := rfl
@[simp] theorem raise1_link (m : Byte) (s : State) : (s.raise1 m).link = s.link := rfl
@[simp] theorem raise1_own (m : Byte) (s : State) : (s.raise1 m).own = s.own := rfl
@[simp] theorem raise1_jr (m : Byte) (s : State) : (s.raise1 m).jr = s.jr := rfl
@[simp] theorem raise1_ob (m : Byte) (s : State) : (s.raise1 m).ob = s.ob := rfl
@[simp] theorem raise1_ib (m : Byte) (s : State) : (s.raise1 m).ib = s.ib := rfl
@[simp] theorem raise1_ks (m : Byte) (s : State) : (s.raise1 m).ks = s.ks := rfl
@[simp] theorem raise1_st (m : Byte) (s : State) : (s.raise1 m).st = s.st := rfl
@[simp] theorem raise1_lm (m : Byte) (s : State) : (s.raise1 m).lm = s.lm := rfl
@[simp] theorem raise1_pr (m : Byte) (s : State) : (s.raise1 m).pr = s.pr := rfl
@[simp] theorem raise1_serial (m : Byte) (s : State) : (s.raise1 m).serial = s.serial := rfl
@[simp] theorem raise1_pending (m : Byte) (s : State) : (s.raise1 m).pending = s.pending := rfl
@[simp] theorem raise1_flags0 (m : Byte) (s : State) : (s.raise1 m).ia.flags0 = s.ia.flags0 := rfl
@[simp] theorem raise1_flags1 (m : Byte) (s : State) : (s.raise1 m).ia.flags1 = s.ia.flags1 ||| m := rfl
@[simp] theorem raise1_enable0 (m : Byte) (s : State) : (s.raise1 m).ia.enable0 = s.ia.enable0 := rfl
@[simp] theorem raise1_enable1 (m : Byte) (s : State) : (s.raise1 m).ia.enable1 = s.ia.enable1 := rfl
@[simp] theorem raise1_mbDone (m : Byte) (s : State) : (s.raise1 m).ia.mbDone = s.ia.mbDone := rfl
@[simp] theorem raise1_fHit (m : Byte) (s : State) : (s.raise1 m).ia.fHit = s.ia.fHit := rfl

@[simp] theorem updCopies_pins (m : Master) (f : Copies → Copies) (s : State) : (s.updCopies m f).pins = s.pins := by
  cases m <;> rfl
@[simp] theorem updCopies_hp (m : Master) (f : Copies → Copies) (s : State) : (s.updCopies m f).hp = s.hp := by
  cases m <;> rfl
@[simp] theorem updCopies_rc (m : Master) (f : Copies → Copies) (s : State) : (s.updCopies m f).rc = s.rc := by
  cases m <;> rfl
@[simp] theorem updCopies_link (m : Master) (f : Copies → Copies) (s : State) : (s.updCopies m f).link = s.link := by
  cases m <;> rfl
@[simp] theorem updCopies_own (m : Master) (f : Copies → Copies) (s : State) : (s.updCopies m f).own = s.own := by
  cases m <;> rfl
@[simp] theorem updCopies_jr (m : Master) (f : Copies → Copies) (s : State) : (s.updCopies m f).jr = s.jr := by
  cases m <;> rfl
@[simp] theorem updCopies_ob (m : Master) (f : Copies → Copies) (s : State) : (s.updCopies m f).ob = s.ob := by
  cases m <;> rfl
@[simp] theorem updCopies_ib (m : Master) (f : Copies → Copies) (s : State) : (s.updCopies m f).ib = s.ib := by
  cases m <;> rfl
@[simp] theorem updCopies_ks (m : Master) (f : Copies → Copies) (s : State) : (s.updCopies m f).ks = s.ks := by
  cases m <;> rfl
@[simp] theorem updCopies_st (m : Master) (f : Copies → Copies) (s : State) : (s.updCopies m f).st = s.st := by
  cases m <;> rfl
@[simp] theorem updCopies_lm (m : Master) (f : Copies → Copies) (s : State) : (s.updCopies m f).lm = s.lm := by
  cases m <;> rfl
@[simp] theorem updCopies_ia (m : Master) (f : Copies → Copies) (s : State) : (s.updCopies m f).ia = s.ia := by
  cases m <;> rfl
@[simp] theorem updCopies_pr (m : Master) (f : Copies → Copies) (s : State) : (s.updCopies m f).pr = s.pr := by
  cases m <;> rfl
@[simp] theorem updCopies_serial (m : Master) (f : Copies → Copies) (s : State) : (s.updCopies m f).serial = s.serial := by
  cases m <;> rfl
@[simp] theorem updCopies_pending (m : Master) (f : Copies → Copies) (s : State) : (s.updCopies m f).pending = s.pending := by
  cases m <;> rfl

/-- A master's copies after a change of its copies. -/
@[simp] theorem updCopies_copies (m : Master) (f : Copies → Copies) (s : State) :
    (s.updCopies m f).copies m = f (s.copies m) := by cases m <;> rfl

/-- A change of the head's copies leaves the host's as they were. -/
@[simp] theorem updCopies_host_of_head (f : Copies → Copies) (s : State) : (s.updCopies .head f).host = s.host := rfl

/-- A change of the host's copies leaves the head's as they were. -/
@[simp] theorem updCopies_head_of_host (f : Copies → Copies) (s : State) : (s.updCopies .host f).head = s.head := rfl

end Sys2Proof.Machine
end

