-- ==== Sys2Proof/Laws/Writes.lean ====
section
/-! SUPPORT. What a completed frame and a write of a register by either master can do, said once: a frame that is dispatched, a
write that is accepted, a write that is refused. -/

namespace Sys2Proof.Machine

/-! ### Frames of the operations that a write calls -/

/-- Return-to-source changes the outbound service and the journal alone. -/
theorem returnToSource_eq (s : State) :
    s.returnToSource = { s with ob := s.returnToSource.ob, jr := s.returnToSource.jr } := by
  unfold State.returnToSource
  split
  · rfl
  · split <;> rfl

/-- Return-to-source leaves no item in flight. -/
theorem returnToSource_inFlight (s : State) : s.returnToSource.ob.inFlight = none := by
  unfold State.returnToSource
  split
  · assumption
  · split <;> rfl

/-- With no item in flight return-to-source has no effect. -/
theorem returnToSource_of_none (s : State) (h : s.ob.inFlight = none) : s.returnToSource = s := by
  unfold State.returnToSource
  rw [h]

@[simp] theorem returnToSource_pins (s : State) : s.returnToSource.pins = s.pins := by rw [returnToSource_eq]
@[simp] theorem returnToSource_serial (s : State) : s.returnToSource.serial = s.serial := by rw [returnToSource_eq]
@[simp] theorem returnToSource_pending (s : State) : s.returnToSource.pending = s.pending := by rw [returnToSource_eq]
@[simp] theorem returnToSource_own (s : State) : s.returnToSource.own = s.own := by rw [returnToSource_eq]
@[simp] theorem returnToSource_link (s : State) : s.returnToSource.link = s.link := by rw [returnToSource_eq]
@[simp] theorem returnToSource_pr (s : State) : s.returnToSource.pr = s.pr := by rw [returnToSource_eq]

/-- What no write of a register changes: the pins, SERIAL and the queue of commands. -/
theorem applyWrite_outside (m : Master) (r : Reg) (v : Byte) (s : State) :
    (s.applyWrite m r v).pins = s.pins ∧ (s.applyWrite m r v).serial = s.serial ∧
      (s.applyWrite m r v).pending = s.pending := by
  cases r <;> cases m <;> first | exact ⟨rfl, rfl, rfl⟩ | skip
  all_goals
    simp only [State.applyWrite]
    simp only [State.writeLinkCtl, State.writeScanCtl, State.clearFlags0, State.writeMbCmd, State.writeLocalTime,
      forcedRelease_eq, State.enableLink, State.disableLink, State.turnReset, State.stopTimers, State.raise0]
    repeat' split
    all_goals first | exact ⟨rfl, rfl, rfl⟩ | simp

@[simp] theorem applyWrite_pins (m : Master) (r : Reg) (v : Byte) (s : State) : (s.applyWrite m r v).pins = s.pins :=
  (applyWrite_outside m r v s).1

@[simp] theorem advance_pins (s : State) : s.advance.pins = s.pins := by unfold State.advance; split <;> rfl
@[simp] theorem loadOut_pins (s : State) : s.loadOut.pins = s.pins := by unfold State.loadOut; split <;> rfl
@[simp] theorem captureRefusal_pins (a : Byte) (c : Cause) (s : State) : (s.captureRefusal a c).pins = s.pins := by
  unfold State.captureRefusal; dsimp only; split <;> rfl

/-! ### Events that are taken as they come -/

/-- Nothing comes before the event of a ready part. -/
theorem Ready.settle {s : State} (h : s.Ready) : s.settle = s :=
  settle_of_settled h.settled.restart h.settled.oscillator h.settled.scan

/-- The event of a ready part is taken if it is due. -/
theorem Ready.onEvent_of_due {due : State → Bool} {f : State → State} {s : State} (h : s.Ready) (hd : due s = true) :
    onEvent due f s = (f s).endOfStep := Machine.onEvent_of_due h.running (Ready.settle h) hd

/-- The moment of a ready part has its effect if it comes about. -/
theorem Ready.onMoment_of_due {due : State → Bool} {f : State → State} {s : State} (h : s.Ready) (hd : due s = true) :
    onMoment due f s = f s := Machine.onMoment_of_due h.running (Ready.settle h) hd

/-! ### SPI bytes -/

/-- A byte that completes in its phase has its effect; with CSN low the step cannot end in SLEEP. -/
theorem onEvent_inPhase {p : Phase} {f : State → State} {s : State} (h : s.byteReady p)
    (hf : (f s).pins = s.pins) : onEvent (State.inPhase p) f s = f s := by
  obtain ⟨hh, hc, hp⟩ := h
  rw [Ready.onEvent_of_due hh (by simp [State.inPhase, hc, hp]), endOfStep_of_csnLow _ (by rw [hf, hc])]

/-! ### Completed frames -/

/-- A frame that completes is processed, and the step ends. -/
theorem frameEvent_of_ready {bytes : State → List RxByte} {s : State} (h : s.frameReady) :
    frameEvent bytes s = (s.completeFrame (bytes s)).endOfStep := by
  obtain ⟨hh, hl, hr⟩ := h
  exact Ready.onEvent_of_due hh (by simp [State.frameDue, hl, hr, Receiver.start])

/-- Outside SLEEP and WAKING a completed frame is processed by its class. -/
theorem completeFrame_of_awake {bytes : List RxByte} {s : State} (h : s.awake = true) :
    s.completeFrame bytes =
      State.processFrame (classify s.link.addr (bytes.foldl Receiver.receive s.link.rx))
        { s with link.rx := Receiver.completed } := by
  unfold State.completeFrame
  revert h
  unfold State.awake PowerState.awake
  split <;> simp_all

/-- A valid head frame is dispatched in the state that has heard it. -/
theorem completeFrame_headFrame {dest : BitVec 5} {kind : FrameKind} {av : Bool} {tn : BitVec 3} {body : List Byte}
    {s : State} (ha : s.awake = true) (hr : s.link.rx = Receiver.start) (hl : body.length ≤ 48)
    (hk : kind.fromHead = true)
    (hb : Frame.bodyOk { dest := dest, src := 0, kind := kind, av := av, tn := tn, body := body } = true)
    (hd : Frame.addressed s.link.addr { dest := dest, src := 0, kind := kind, av := av, tn := tn, body := body } = true) :
    s.completeFrame (headFrame dest kind av tn body) =
      s.heard.dispatch { dest := dest, src := 0, kind := kind, av := av, tn := tn, body := body } := by
  rw [completeFrame_of_awake ha, hr, headFrame, classify_frame _ _ hl]
  have hdir : Frame.directionOk { dest := dest, src := 0, kind := kind, av := av, tn := tn, body := body } = true := by
    simp [Frame.directionOk, hk]
  rw [hdir, hb, hd]
  exact if_pos hk

/-- A head frame to a satellite's own address passes the addressing rule. -/
theorem addressed_unicast {s : State} (h : s.addressed) (kind : FrameKind) (hk : kind.fromHead = true) (av : Bool)
    (tn : BitVec 3) (body : List Byte) :
    Frame.addressed s.link.addr { dest := s.link.addr, src := 0, kind := kind, av := av, tn := tn, body := body } = true := by
  obtain ⟨h1, h2⟩ := h
  have h0 : s.link.addr ≠ 0#5 := by intro h; rw [h] at h1; simp at h1
  have h3 : s.link.addr ≠ 31#5 := by intro h; rw [h] at h2; simp at h2
  simp [Frame.addressed, hk, h0, h3]

/-- The step of a head's unicast frame to the own address. -/
theorem frameEvent_unicast {kind : FrameKind} {av : Bool} {tn : BitVec 3} {body : List Byte} {s : State}
    (hs : s.frameReady) (ha : s.awake = true) (hd : s.addressed) (hl : body.length ≤ 48) (hk : kind.fromHead = true)
    (hb : Frame.bodyOk { dest := s.link.addr, src := 0, kind := kind, av := av, tn := tn, body := body } = true) :
    frameEvent (unicast kind av tn body) s =
      (s.heard.dispatch { dest := s.link.addr, src := 0, kind := kind, av := av, tn := tn, body := body }).endOfStep := by
  rw [frameEvent_of_ready hs]
  exact congrArg _ (completeFrame_headFrame ha hs.2.2 hl hk hb (addressed_unicast hd kind hk av tn body))

/-- The step of a head's broadcast frame of a kind that may be broadcast. -/
theorem frameEvent_broadcast {kind : FrameKind} {tn : BitVec 3} {body : List Byte} {s : State}
    (hs : s.frameReady) (ha : s.awake = true) (hl : body.length ≤ 48) (hk : kind.fromHead = true)
    (hb : Frame.bodyOk { dest := 31#5, src := 0, kind := kind, av := false, tn := tn, body := body } = true)
    (hn : Frame.neverBroadcast { dest := 31#5, src := 0, kind := kind, av := false, tn := tn, body := body } = false) :
    frameEvent (fun _ => broadcast kind tn body) s =
      (s.heard.dispatch { dest := 31#5, src := 0, kind := kind, av := false, tn := tn, body := body }).endOfStep := by
  rw [frameEvent_of_ready hs]
  refine congrArg _ (completeFrame_headFrame ha hs.2.2 hl hk hb ?_)
  unfold Frame.addressed
  rw [hn]
  simp [hk]

/-! ### Writes -/

/-- Hearing a frame changes nothing that the access check reads. -/
theorem check_heard (s : State) (m : Master) (r : Reg) (v : Byte) : s.heard.check m r v = s.check m r v := by
  cases r <;> rfl

/-- A one-byte POKE in JOINED. -/
theorem headWrite_of_ready {addr v : Byte} {s : State} (hs : s.frameReady) (ha : s.awake = true)
    (hj : s.link.state = .joined) (hd : s.addressed) : headWrite addr v s = (s.heard.servePoke addr [v]).endOfStep := by
  unfold headWrite
  rw [frameEvent_unicast hs ha hd (by simp) rfl (by simp [Frame.bodyOk])]
  have : s.heard.joined = true := by simp [State.joined, State.heard, hj]
  simp [State.dispatch, this, byteAt]

/-- A write that passes the access check takes effect, whichever master makes it. -/
theorem writeBy_accepted {m : Master} {addr v : Byte} {s : State} (hs : s.writeReady m addr)
    (hc : s.check m (regAt addr) v = none) (hr : m = .host → regAt addr ≠ .restart) :
    writeBy m addr v s = ((s.opened m).applyWrite m (regAt addr) v).closed m := by
  obtain ⟨ha, hs⟩ := hs
  cases m with
  | host =>
    obtain ⟨⟨hh, hl, hp⟩, ht⟩ := hs
    have hw : s.hostWriteByte v = (s.applyWrite .host (regAt addr) v).advance.loadOut := by
      simp [State.hostWriteByte, ht, hc, hr rfl]
    simp only [writeBy, hostWrite, State.opened, State.closed]
    rw [Ready.onEvent_of_due hh (by simp [State.writesAt, State.inPhase, hl, hp, ht]), hw,
      endOfStep_of_csnLow _ (by simp [hl])]
  | head =>
    obtain ⟨hf, hj, hd⟩ := hs
    simp only [writeBy, State.opened, State.closed]
    rw [headWrite_of_ready hf ha hj hd]
    have hp : pastEnd addr 1 = false := by simp [pastEnd]; omega
    simp [State.servePoke, hp, State.firstRefusal, check_heard, hc, State.writeSpan]
    rfl

/-- A write that fails the access check is reported to the master that made it, and has no other effect. -/
theorem writeBy_refused {m : Master} {addr v : Byte} {c : Cause} {s : State} (hs : s.writeReady m addr)
    (hc : s.check m (regAt addr) v = some c) : writeBy m addr v s = s.refusedWrite m addr c := by
  obtain ⟨ha, hs⟩ := hs
  cases m with
  | host =>
    obtain ⟨⟨hh, hl, hp⟩, ht⟩ := hs
    have hw : s.hostWriteByte v = (s.captureRefusal addr c).advance.loadOut := by simp [State.hostWriteByte, ht, hc]
    simp only [writeBy, hostWrite, State.refusedWrite]
    rw [Ready.onEvent_of_due hh (by simp [State.writesAt, State.inPhase, hl, hp, ht]), hw,
      endOfStep_of_csnLow _ (by simp [hl])]
  | head =>
    obtain ⟨hf, hj, hd⟩ := hs
    simp only [writeBy, State.refusedWrite]
    rw [headWrite_of_ready hf ha hj hd]
    have hp : pastEnd addr 1 = false := by simp [pastEnd]; omega
    simp [State.servePoke, hp, State.firstRefusal, check_heard, hc]

end Sys2Proof.Machine
end

