-- ==== Sys2Proof/Laws/Keys.lean ====
section
/-! SUPPORT. What the stages of a scan leave of one key. -/

namespace Sys2Proof.Machine

/-- The debounce counter of one key after the readings. -/
theorem debounceAll_at (ks : Scanner) (raw : BitVec 48) (k : Fin 48) :
    (ks.debounceAll raw).keys[k] = { ks.keys[k] with deb := ks.nextDeb raw k } := by simp [Scanner.debounceAll]

/-- The scan after stage 1. -/
def afterRelease (ks : Scanner) (raw : BitVec 48) : Stage := overKeys (releaseKey (ks.flips raw)) (ks.debounceAll raw, [])

/-- The scan after stage 2. -/
def afterReview (ks : Scanner) (raw : BitVec 48) : Stage := overKeys reviewKey (afterRelease ks raw)

/-- The scan after stage 3. -/
def afterPress (ks : Scanner) (raw : BitVec 48) : Stage := overKeys (pressKey fun k => ks.flips raw k && !(ks.keyState k).pressed) (afterReview ks raw)

/-- A scan is stage 4 after the other three. -/
theorem scan_def (ks : Scanner) (raw : BitVec 48) (len : Nat) : ks.scan raw len = overKeys (timeKey (fun k => (ks.keyState k).isCounted) len) (afterPress ks raw) := rfl

theorem afterRelease_settings (ks : Scanner) (raw : BitVec 48) : (afterRelease ks raw).1 = { ks with keys := (afterRelease ks raw).1.keys } := by
  unfold afterRelease; rw [overKeys_settings (releaseKey_local _)]; rfl

theorem afterReview_settings (ks : Scanner) (raw : BitVec 48) : (afterReview ks raw).1 = { ks with keys := (afterReview ks raw).1.keys } := by
  unfold afterReview; rw [overKeys_settings reviewKey_local, afterRelease_settings]

theorem afterPress_settings (ks : Scanner) (raw : BitVec 48) : (afterPress ks raw).1 = { ks with keys := (afterPress ks raw).1.keys } := by
  unfold afterPress; rw [overKeys_settings (pressKey_local _), afterReview_settings]

/-- A scan changes keys alone. -/
theorem scan_settings (ks : Scanner) (raw : BitVec 48) (len) : (ks.scan raw len).1 = { ks with keys := (ks.scan raw len).1.keys } := by
  rw [scan_def, overKeys_settings (timeKey_local _ _), afterPress_settings]

theorem downSet_clock (ks : Scanner) (c d) : ({ ks with clock := c, due := d } : Scanner).downSet = ks.downSet := by
  unfold Scanner.downSet Scanner.keyState; rfl

/-- The step of a scan completion in RUN, DOZE and SETTLING. -/
theorem scan_exec (keys : BitVec 48) (s : State) (ha : s.awake = true) :
    s.completeScan keys = { s with
        pins.switches := keys
        ks := { (s.ks.scan keys s.ks.clock).1 with clock := 0, due := false }
        jr := (s.recordAll (s.ks.scan keys s.ks.clock).2).jr
        ia.flags1 := (s.recordAll (s.ks.scan keys s.ks.clock).2).ia.flags1
        lm := s.lm.takeDown (s.ks.scan keys s.ks.clock).1.downSet } := by
  have : s.completeScan keys = s.processScan keys := by
    unfold State.completeScan; revert ha; unfold State.awake PowerState.awake; split <;> simp_all
  rw [this]; unfold State.processScan State.handOverKeys
  dsimp only
  rw [downSet_clock]
  rw [recordAll_eq]

/-- The down set holds the counted keys. -/
theorem downSet_bit (ks : Scanner) (k : Fin 48) : ks.downSet.getLsbD k.val = (ks.keyState k).isCounted := by
  have key : ∀ (l : List (Fin 48)) (acc : BitVec 48), (l.foldl (fun acc k => if (ks.keyState k).isCounted then acc ||| (1#48 <<< k.val) else acc) acc).getLsbD k.val = (acc.getLsbD k.val || (l.contains k && (ks.keyState k).isCounted)) := by
    intro l
    induction l with
    | nil => intro acc; simp
    | cons j rest ih =>
      intro acc
      rw [List.foldl_cons, ih]
      by_cases hjk : j = k
      · subst hjk
        cases hc : (ks.keyState j).isCounted
        · simp
        · simp
      · have hv : j.val ≠ k.val := fun h => hjk (Fin.ext h)
        have hb : (1#48 <<< j.val)[k.val] = false := by
          simp [BitVec.getElem_shiftLeft, BitVec.getElem_one]
          omega
        have hjk' : ¬ k = j := fun h => hjk h.symm
        cases hc : (ks.keyState j).isCounted <;> simp [hb, hjk']
  have := key (List.finRange 48) 0#48
  rw [Scanner.downSet, this]; simp

/-- One key after stage 1. -/
theorem afterRelease_at (ks : Scanner) (raw) (k : Fin 48) :
    (afterRelease ks raw).1.keys[k] = (if ks.flips raw k && (ks.keyState k).pressed then ({ ks.keys[k] with deb := ks.nextDeb raw k } : Key).fresh .up else { ks.keys[k] with deb := ks.nextDeb raw k }) ∧
    eventsAbout k (afterRelease ks raw).2 = (if ks.flips raw k && (ks.keyState k).pressed then releaseEvents k (ks.keyState k) else []) := by
  obtain ⟨h1, h2, h3, h4, -⟩ := overKeys_at (releaseKey_local (ks.flips raw)) k (ks.debounceAll raw, [])
  generalize hpreh : List.foldl _ _ _ = preh at h1 h2 h3 h4
  have h3' := h3.trans (debounceAll_at ks raw k)
  unfold afterRelease
  rw [h1, h2]
  unfold releaseKey
  rw [h3']
  dsimp only
  have hst : ks.keys[k].state = ks.keyState k := rfl
  rw [hst]
  split
  · refine ⟨setKey_same _ _ _, ?_⟩
    unfold eventsAbout at h4 ⊢
    rw [List.filter_append, h4]
    cases ks.keyState k <;> simp [releaseEvents, keyEvent]
  · exact ⟨h3', h4⟩

theorem nextDeb_flip (ks : Scanner) (raw) (k : Fin 48) (h : ks.flips raw k = true) : ks.nextDeb raw k = 0 := by
  unfold Scanner.nextDeb; rw [h]; revert h; unfold Scanner.flips; simp; intro h1; simp [h1]

/-- A key that stage 1 leaves UP for good. -/
theorem later_up (ks : Scanner) (raw) (len) (k : Fin 48) (d : Nat)
    (hA : (afterRelease ks raw).1.keys[k] = { state := .up, deb := d, hold := 0, rept := 0, ordinal := 0 })
    (hp : (ks.flips raw k && !(ks.keyState k).pressed) = false) :
    (ks.scan raw len).1.keys[k] = { state := .up, deb := d, hold := 0, rept := 0, ordinal := 0 } ∧ eventsAbout k (ks.scan raw len).2 = eventsAbout k (afterRelease ks raw).2 := by
  obtain ⟨b1, b2, b3, b4, -⟩ := overKeys_at reviewKey_local k (afterRelease ks raw)
  generalize hpreb : List.foldl _ _ _ = preb at b1 b2 b3 b4
  obtain ⟨c1, c2, c3, c4, -⟩ := overKeys_at (pressKey_local (fun k => ks.flips raw k && !(ks.keyState k).pressed)) k (afterReview ks raw)
  generalize hprec : List.foldl _ _ _ = prec at c1 c2 c3 c4
  obtain ⟨d1, d2, d3, d4, -⟩ := overKeys_at (timeKey_local (fun k => (ks.keyState k).isCounted) len) k (afterPress ks raw)
  generalize hpred : List.foldl _ _ _ = pred at d1 d2 d3 d4
  have hB : (afterReview ks raw).1.keys[k] = { state := .up, deb := d, hold := 0, rept := 0, ordinal := 0 } ∧ eventsAbout k (afterReview ks raw).2 = eventsAbout k (afterRelease ks raw).2 := by
    unfold afterReview
    rw [b1, b2]
    unfold reviewKey
    have : preb.1.keyState k = .up := by
      unfold Scanner.keyState; rw [b3, hA]
    rw [this]
    exact ⟨b3.trans hA, b4⟩
  have hC : (afterPress ks raw).1.keys[k] = { state := .up, deb := d, hold := 0, rept := 0, ordinal := 0 } ∧ eventsAbout k (afterPress ks raw).2 = eventsAbout k (afterRelease ks raw).2 := by
    unfold afterPress
    rw [c1, c2]
    unfold pressKey
    simp only [hp, Bool.false_and, Bool.false_eq_true, if_false]
    exact ⟨c3.trans hB.1, c4.trans hB.2⟩
  rw [scan_def, d1, d2]
  unfold timeKey
  dsimp only
  rw [d3.trans hC.1]
  exact ⟨d3.trans hC.1, d4.trans hC.2⟩

/-- Stage 2 as it treats one key. -/
theorem afterReview_at (ks : Scanner) (raw) (k : Fin 48) : ∃ pre : Stage, pre.1 = ks.reachingReview raw k ∧
   (afterReview ks raw).1.keys[k] = (reviewKey pre k).1.keys[k] ∧ eventsAbout k (afterReview ks raw).2 = eventsAbout k (reviewKey pre k).2 ∧ pre.1.keys[k] = (afterRelease ks raw).1.keys[k] ∧ eventsAbout k pre.2 = eventsAbout k (afterRelease ks raw).2 := by
  obtain ⟨b1, b2, b3, b4, -⟩ := overKeys_at reviewKey_local k (afterRelease ks raw)
  unfold afterReview
  exact ⟨_, by simp only [Scanner.reachingReview, afterRelease], b1, b2, b3, b4⟩

/-- Stage 3 as it treats one key. -/
theorem afterPress_at (ks : Scanner) (raw) (k : Fin 48) : ∃ pre : Stage, pre.1 = ks.reachingPress raw k ∧
   (afterPress ks raw).1.keys[k] = (pressKey (fun k => ks.flips raw k && !(ks.keyState k).pressed) pre k).1.keys[k] ∧ eventsAbout k (afterPress ks raw).2 = eventsAbout k (pressKey (fun k => ks.flips raw k && !(ks.keyState k).pressed) pre k).2 ∧ pre.1.keys[k] = (afterReview ks raw).1.keys[k] ∧ eventsAbout k pre.2 = eventsAbout k (afterReview ks raw).2 := by
  obtain ⟨b1, b2, b3, b4, -⟩ := overKeys_at (pressKey_local (fun k => ks.flips raw k && !(ks.keyState k).pressed)) k (afterReview ks raw)
  unfold afterPress
  refine ⟨(((List.finRange 48).filter (· < k)).foldl (pressKey fun k => ks.flips raw k && !(ks.keyState k).pressed) (afterReview ks raw)), ?_, b1, b2, b3, b4⟩
  unfold Scanner.reachingPress afterReview afterRelease; rfl

theorem afterPress_skip (ks : Scanner) (raw) (k : Fin 48) (hp : (ks.flips raw k && !(ks.keyState k).pressed) = false) :
    (afterPress ks raw).1.keys[k] = (afterReview ks raw).1.keys[k] ∧ eventsAbout k (afterPress ks raw).2 = eventsAbout k (afterReview ks raw).2 := by
  obtain ⟨pre, -, h1, h2, h3, h4⟩ := afterPress_at ks raw k
  rw [h1, h2]; unfold pressKey
  simp only [hp, Bool.false_and, Bool.false_eq_true, if_false]
  exact ⟨h3, h4⟩

/-- Stage 4 as it treats one key. -/
theorem scan_at (ks : Scanner) (raw) (len) (k : Fin 48) : ∃ pre : Stage, pre.1 = { ks with keys := pre.1.keys } ∧
   (ks.scan raw len).1.keys[k] = (timeKey (fun k => (ks.keyState k).isCounted) len pre k).1.keys[k] ∧ eventsAbout k (ks.scan raw len).2 = eventsAbout k (timeKey (fun k => (ks.keyState k).isCounted) len pre k).2 ∧ pre.1.keys[k] = (afterPress ks raw).1.keys[k] ∧ eventsAbout k pre.2 = eventsAbout k (afterPress ks raw).2 := by
  obtain ⟨b1, b2, b3, b4, b5⟩ := overKeys_at (timeKey_local (fun k => (ks.keyState k).isCounted) len) k (afterPress ks raw)
  rw [scan_def]
  refine ⟨_, ?_, b1, b2, b3, b4⟩
  rw [b5, afterPress_settings]

theorem timeKey_skip (w : Fin 48 → Bool) (len) (acc : Stage) (k) (h : w k = false) : timeKey w len acc k = acc := by
  unfold timeKey; dsimp only; split <;> simp [h]

theorem scan_skip (ks : Scanner) (raw) (len) (k : Fin 48) (hp : (ks.keyState k).isCounted = false) :
    (ks.scan raw len).1.keys[k] = (afterPress ks raw).1.keys[k] ∧ eventsAbout k (ks.scan raw len).2 = eventsAbout k (afterPress ks raw).2 := by
  obtain ⟨pre, -, h1, h2, h3, h4⟩ := scan_at ks raw len k
  rw [h1, h2, timeKey_skip _ _ _ _ hp]
  exact ⟨h3, h4⟩

/-- Admission of one key. -/
theorem admitKey_at (acc : Stage) (k : Fin 48) : (admitKey acc k).1.keys[k] = (if acc.1.countedKeys < 4 then acc.1.keys[k].fresh .down else acc.1.keys[k].fresh .blocked) ∧
   eventsAbout k (admitKey acc k).2 = eventsAbout k acc.2 ++ (if acc.1.countedKeys < 4 then [keyEvent .keyDown k 0] else []) := by
  unfold admitKey; dsimp only [Config.rollover]
  split
  · exact ⟨setKey_same _ _ _, by simp [eventsAbout, keyEvent]⟩
  · exact ⟨setKey_same _ _ _, by simp⟩

/-- With every key UP the down set is empty. -/
theorem allUp_downSet (ks : Scanner) : ks.allUp.downSet = 0#48 := by
  apply BitVec.eq_of_getLsbD_eq
  intro i hi
  have := downSet_bit ks.allUp ⟨i, hi⟩
  rw [this]; simp [Scanner.keyState, Scanner.allUp, Key.up, KeyState.isCounted]

/-! ### The scanner's tests, written out -/

/-- A corner of a rectangle is DOWN, LONG or BLOCKED. -/
theorem corner_iff (x : Scanner) (j : Fin 48) : (x.keyState j).corner = true ↔ (x.keys[j].state = .down ∨ x.keys[j].state = .long ∨ x.keys[j].state = .blocked) := by
  unfold Scanner.keyState; cases x.keys[j].state <;> simp [KeyState.corner]

/-- R139's rectangle: keys A, B and C. -/
theorem completesRectangle_iff (x : Scanner) (k : Fin 48) : x.completesRectangle k = true ↔ ∃ a b c : Fin 48,
    a.val / 6 = k.val / 6 ∧ a.val % 6 ≠ k.val % 6 ∧ b.val % 6 = k.val % 6 ∧ b.val / 6 ≠ k.val / 6 ∧
      c.val / 6 = b.val / 6 ∧ c.val % 6 = a.val % 6 ∧ (x.keys[a].state = .down ∨ x.keys[a].state = .long ∨ x.keys[a].state = .blocked) ∧ (x.keys[b].state = .down ∨ x.keys[b].state = .long ∨ x.keys[b].state = .blocked) ∧ (x.keys[c].state = .down ∨ x.keys[c].state = .long ∨ x.keys[c].state = .blocked) := by
  unfold Scanner.completesRectangle
  simp only [List.any_eq_true, List.mem_finRange, true_and, Bool.and_eq_true, decide_eq_true_eq, corner_iff]
  constructor
  · rintro ⟨d, s, ⟨⟨⟨h1, h2⟩, h3⟩, h4⟩, h5⟩
    refine ⟨_, _, _, ?_, ?_, ?_, ?_, ?_, ?_, h3, h4, h5⟩ <;> simp [keyAt, driveOf, senseOf] at * <;> omega
  · rintro ⟨a, b, c, h1, h2, h3, h4, h5, h6, h7, h8, h9⟩
    refine ⟨⟨b.val / 6, by omega⟩, ⟨a.val % 6, by omega⟩, ?_⟩
    have ea : keyAt ⟨driveOf k, by simp only [driveOf]; omega⟩ ⟨a.val % 6, by omega⟩ = a := by
      apply Fin.ext; simp [keyAt, driveOf]; omega
    have eb : keyAt ⟨b.val / 6, by omega⟩ ⟨senseOf k, by simp only [senseOf]; omega⟩ = b := by
      apply Fin.ext; simp [keyAt, senseOf]; omega
    have ec : keyAt ⟨b.val / 6, by omega⟩ ⟨a.val % 6, by omega⟩ = c := by
      apply Fin.ext; simp [keyAt]; omega
    rw [ea, eb, ec]
    simp only [driveOf, senseOf]
    exact ⟨⟨⟨⟨h4, h2⟩, h7⟩, h8⟩, h9⟩

/-- The counted keys are those in DOWN or LONG. -/
theorem countedKeys_eq (x : Scanner) : ((List.finRange 48).filter fun j => x.keys[j].state = .down ∨ x.keys[j].state = .long).length = x.countedKeys := by
  unfold Scanner.countedKeys
  rw [List.countP_eq_length_filter]
  congr 2
  funext k
  show _ = (x.keys[k].state).isCounted
  cases x.keys[k].state <;> simp [KeyState.isCounted]

/-- The debounce counter of a key that is pressed and is not released in this scan. -/
theorem nextDeb_of_pressed (ks : Scanner) (keys : BitVec 48) (k : Fin 48) (hp : (ks.keyState k).pressed = true) (hf : ks.flips keys k = false) :
    ks.nextDeb keys k = if ks.used k then (if keys.getLsbD k.val then 0 else ks.keys[k].deb + 1) else ks.keys[k].deb := by
  unfold Scanner.nextDeb
  rw [hf, hp]
  cases ks.used k <;> cases keys.getLsbD k.val <;> simp

/-- A key that stays UP makes no record. -/
theorem scan_of_up (s : State) (keys) (k : Fin 48) (hst : s.ks.keyState k = .up) (hf : s.ks.flips keys k = false) :
   (s.ks.scan keys s.ks.clock).1.keys[k] = { s.ks.keys[k] with deb := s.ks.nextDeb keys k } ∧ eventsAbout k (s.ks.scan keys s.ks.clock).2 = [] := by
  have hnc : (s.ks.keyState k).isCounted = false := by rw [hst]; rfl
  obtain ⟨d1, d2⟩ := scan_skip s.ks keys s.ks.clock k hnc
  obtain ⟨c1, c2⟩ := afterPress_skip s.ks keys k (by simp [hf])
  obtain ⟨preb, -, b1, b2, b3, b4⟩ := afterReview_at s.ks keys k
  obtain ⟨a1, a2⟩ := afterRelease_at s.ks keys k
  rw [hf] at a1 a2
  simp only [Bool.false_and, Bool.false_eq_true, if_false] at a1 a2
  have hpb : preb.1.keyState k = .up := by unfold Scanner.keyState; rw [b3, a1]; exact hst
  have hrb : reviewKey preb k = preb := by unfold reviewKey; rw [hpb]
  rw [hrb] at b1 b2
  exact ⟨((d1.trans c1).trans b1).trans (b3.trans a1), ((d2.trans c2).trans b2).trans (b4.trans a2)⟩

end Sys2Proof.Machine
end

