-- ==== Sys2Proof/Laws/Link.lean ====
section
/-! SUPPORT. Received bytes, link transitions and polls. -/

namespace Sys2Proof.Machine

/-- CHECK goes on where it stopped. -/
theorem crc_append (as bs : List Byte) : crc (as ++ bs) = bs.foldl crcByte (crc as) := by simp [crc]

/-- The two bytes of a CHECK bring its remainder to 0. -/
theorem crc_step (c : Half) : crcByte (crcByte c (hiByte c)) (loByte c) = 0#16 := by
  have h1 : c ^^^ (hiByte c ++ 0#8) = (loByte c).setWidth 16 := by
    unfold hiByte loByte
    apply BitVec.eq_of_getLsbD_eq
    intro i hi
    rw [BitVec.getLsbD_xor, BitVec.getLsbD_append]
    by_cases h : i < 8
    · simp [h]; omega
    · have : 8 + (i - 8) = i := by omega
      simp [h, this]; intro h2; omega
  have h2 : ∀ x : Byte, crcShift (crcShift (crcShift (crcShift (crcShift (crcShift (crcShift (crcShift (x.setWidth 16)))))))) = x ++ 0#8 := by
    decide
  have h3 : ∀ x : Byte, crcByte (x ++ 0#8) x = 0#16 := by decide
  have h4 : crcByte c (hiByte c) = loByte c ++ 0#8 := by unfold crcByte; rw [h1]; exact h2 _
  rw [h4, h3]

/-- The frame in progress after a run of bytes. -/
theorem receive_all (rx : List RxByte) : rx.foldl Receiver.receive Receiver.start =
    { Receiver.start with bytes := (rx.map (·.value)).take 54, oversize := decide (54 < rx.length), fault := rx.any (·.stopFault) } := by
  have key : ∀ (l : List RxByte) (r : Receiver), r.bytes.length ≤ 54 → l.foldl Receiver.receive r =
      { r with bytes := (r.bytes ++ l.map (·.value)).take 54, oversize := r.oversize || decide (54 < r.bytes.length + l.length), fault := r.fault || l.any (·.stopFault) } := by
    intro l
    induction l with
    | nil => intro r h; simp [List.take_of_length_le h]; cases r; simp at h ⊢; omega
    | cons b rest ih =>
      intro r h
      rw [List.foldl_cons]
      by_cases hl : r.bytes.length < 54
      · have : r.receive b = { r with bytes := r.bytes ++ [b.value], fault := r.fault || b.stopFault } := by simp [Receiver.receive, Config.frameBytes, hl]
        have h9 : r.bytes.length + 1 + rest.length = r.bytes.length + (rest.length + 1) := by omega
        rw [this, ih _ (by simp; omega)]
        simp [Bool.or_assoc, h9]
      · have h5 : r.bytes.length = 54 := by omega
        have : r.receive b = { r with oversize := true, fault := r.fault || b.stopFault } := by simp [Receiver.receive, Config.frameBytes, hl]
        rw [this, ih { r with oversize := true, fault := r.fault || b.stopFault } h]
        simp [Bool.or_assoc, h5]
  rw [key rx Receiver.start (by simp [Receiver.start])]
  simp [Receiver.start]

theorem list_four (bs : List Byte) (h : 6 ≤ bs.length) : ∃ d s k l rest, bs = d :: s :: k :: l :: rest := by
  match bs, h with
  | d :: s :: k :: l :: rest, _ => exact ⟨d, s, k, l, rest, rfl⟩

/-- The ten tests of R27 on a run of bytes. -/
theorem classify_raw (own : BitVec 5) (rx : List RxByte) :
    let bs := rx.map (·.value)
    let len := (byteAt bs 3).toNat
    let check := crc (bs.take (4 + len))
    classify own (rx.foldl Receiver.receive Receiver.start) =
      if rx.any (·.stopFault) then .badFormat
      else if bs.length < 6 then .badFormat
      else if 48 < len then .badFormat
      else if bs.length ≠ 6 + len then .badFormat
      else if bs.drop (4 + len) ≠ [hiByte check, loByte check] then .badCrc
      else classifyHeader own (byteAt bs 0) (byteAt bs 1) (byteAt bs 2) ((bs.drop 4).take len) := by
  intro bs len check
  rw [receive_all]
  unfold classify
  dsimp only
  by_cases hf : rx.any (·.stopFault) = true
  · rw [if_pos hf, if_pos hf]
  rw [if_neg hf, if_neg hf]
  have hlen : rx.length = bs.length := by simp [bs]
  by_cases h6 : bs.length < 6
  · rw [if_pos h6]
    have : bs.take 54 = bs := List.take_of_length_le (by omega)
    show (match bs.take 54 with
      | d :: s :: k :: l :: rest => if (bs.take 54).length < 6 then FrameClass.badFormat else _
      | _ => FrameClass.badFormat) = _
    rw [this]
    clear_value bs
    rcases bs with _ | ⟨d, _ | ⟨s, _ | ⟨k, _ | ⟨l, rest⟩⟩⟩⟩
    · rfl
    · rfl
    · rfl
    · rfl
    · exact if_pos h6
  rw [if_neg h6]
  obtain ⟨d, s, k, l, rest, hbs⟩ := list_four bs (by omega)
  have hl : len = l.toNat := by simp [len, hbs, byteAt]
  have ht : bs.take 54 = d :: s :: k :: l :: rest.take 50 := by rw [hbs]; rfl
  show (match bs.take 54 with
      | d :: s :: k :: l :: rest => if (bs.take 54).length < 6 then FrameClass.badFormat else _
      | _ => FrameClass.badFormat) = _
  rw [ht]
  dsimp only
  have hr : bs.length = rest.length + 4 := by rw [hbs]; rfl
  rw [if_neg (by simp; omega)]
  rw [← hl]
  by_cases h48 : 48 < len
  · rw [if_pos h48, if_pos h48]
  rw [if_neg h48, if_neg h48]
  by_cases hn : bs.length ≠ 6 + len
  · rw [if_pos hn, if_pos]
    simp only [Bool.or_eq_true, decide_eq_true_eq, bne_iff_ne, List.length_cons, List.length_take]
    by_cases h54 : 54 < rx.length
    · exact .inl h54
    · right; omega
  rw [if_neg hn]
  have hn' : bs.length = 6 + len := by omega
  rw [if_neg (by simp only [Bool.or_eq_true, decide_eq_true_eq, bne_iff_ne, List.length_cons, List.length_take]; omega)]
  have hrt : rest.take 50 = rest := List.take_of_length_le (by omega)
  rw [hrt]
  have e1 : bs.drop (4 + len) = rest.drop len := by rw [hbs, Nat.add_comm]; rfl
  have e2 : bs.take (4 + len) = d :: s :: k :: l :: rest.take len := by rw [hbs, Nat.add_comm]; rfl
  have e3 : (bs.drop 4).take len = rest.take len := by rw [hbs]; rfl
  have e4 : byteAt bs 0 = d ∧ byteAt bs 1 = s ∧ byteAt bs 2 = k := by rw [hbs]; exact ⟨rfl, rfl, rfl⟩
  rw [e4.1, e4.2.1, e4.2.2, e3, e1]
  have e5 : check = crc (d :: s :: k :: l :: rest.take len) := congrArg crc e2
  rw [← e5]
  generalize classifyHeader own d s k (rest.take len) = X
  generalize [hiByte check, loByte check] = Y
  generalize rest.drop len = Z
  by_cases hz : Z = Y
  · rw [if_neg (by simp [hz]), if_neg (by simp [hz])]
  · rw [if_pos (by simp [hz]), if_pos hz]

/-- A frame that completes in SLEEP. -/
theorem completeFrame_asleep (s : State) (rx) (h : s.pr.state = .sleep) : s.completeFrame rx =
    if State.wakesFor { s with link.rx := Receiver.completed } (classify s.link.addr (rx.foldl Receiver.receive s.link.rx)) then
      { s with link.rx := Receiver.completed, ks.clock := 0, ks.due := false, pr := { s.pr with state := .waking, request := some (.link, 0), wakeTicks := 0 } }
    else { s with link.rx := Receiver.completed } := by
  unfold State.completeFrame; rw [h]
  simp [State.requestWake, h]

/-- Return-to-source depends on the outbound service and the journal alone. -/
theorem returnToSource_sources (s : State) (o : State) (h1 : o.ob = s.ob) (h2 : o.jr = s.jr) : o.returnToSource = { o with ob := s.returnToSource.ob, jr := s.returnToSource.jr } := by
  unfold State.returnToSource
  rw [h1, h2]
  split
  · rw [← h1, ← h2]
  · split <;> rfl

/-- Everything that disabling the link does. -/
theorem disableLink_eq (s o : State) (h1 : o.ob = s.ob) (h2 : o.jr = s.jr) : o.disableLink = { o with
    link := { o.link with state := .off, watchdog := 0, quiet := .stopped, rx := Receiver.awaiting, tx := .idle }
    ob := { s.returnToSource.ob with nextTurn := 0 }
    ib.lastTurn := 7
    jr := { s.returnToSource.jr with
      list := (s.returnToSource.jr.list.map fun r => { r with wantRemote := false }).filter fun r => r.wantLocal
      remoteLost := 0 }
    own.rlock := 0
    ia.flags0 := o.ia.flags0 ||| linkChg } := by
  unfold State.disableLink
  dsimp only
  rw [returnToSource_sources s { o with link.tx := .idle, link.rx := Receiver.awaiting } h1 h2]
  unfold Journal.clearRemote
  have : ((s.returnToSource.jr.list.map fun r => { r with wantRemote := false }).filter (·.wanted)) = (s.returnToSource.jr.list.map fun r => { r with wantRemote := false }).filter fun r => r.wantLocal := by
    apply List.filter_congr
    intro x hx
    obtain ⟨y, -, rfl⟩ := List.mem_map.1 hx
    simp [JRecord.wanted]
  rw [this]
  rfl

theorem halfOf_bytes (d : Half) : halfOf (hiByte d) (loByte d) = d := by
  unfold halfOf hiByte loByte
  apply BitVec.eq_of_getLsbD_eq
  intro i hi
  rw [BitVec.getLsbD_append]
  by_cases h : i < 8
  · simp [h]
  · have e : 8 + (i - 8) = i := by omega
    have e2 : i - 8 < 8 := by omega
    simp [h, e, e2]

theorem wordOf_bytes (w : BitVec 32) : wordOf (w.extractLsb' 24 8) (w.extractLsb' 16 8) (w.extractLsb' 8 8) (w.extractLsb' 0 8) = w := by
  unfold wordOf
  apply BitVec.eq_of_getLsbD_eq
  intro i hi
  simp only [BitVec.getLsbD_append, BitVec.getLsbD_extractLsb']
  split
  · simp; omega
  split
  · simp; rw [show 8 + (i - 8) = i by omega]; simp; omega
  split
  · simp; rw [show 16 + (i - 8 - 8) = i by omega]; simp; omega
  · simp; rw [show 24 + (i - 8 - 8 - 8) = i by omega]; simp; omega

theorem heard_joined {s : State} (h : s.link.state = .joined) : s.heard.joined = true := by simp [State.joined, State.heard, h]

/-- A POLL in JOINED runs its stages and replies. -/
theorem poll_of_ready {av tn} {s : State} (hs : s.frameReady) (ha : s.awake = true) (hd : s.addressed) (hj : s.link.state = .joined) :
    exec (.poll av tn) s = .next ((s.heard.pollStages av tn).replyPoll) := by
  simp only [exec, execPoll]
  rw [frameEvent_unicast hs ha hd (by simp) rfl (by simp [Frame.bodyOk])]
  have h1 : s.heard.joined = true := heard_joined hj
  have : (s.heard.dispatch { dest := s.link.addr, src := 0, kind := .poll, av := av, tn := tn, body := [] }) = (s.heard.pollStages av tn).replyPoll := by
    simp [State.dispatch, h1, State.servePoll]
  rw [this, endOfStep_of_busy]
  unfold State.replyPoll
  split <;> simp [State.reply]

/-- The stages of a POLL leave the link engine alone. -/
theorem pollStages_link (av tn) (s : State) : (s.pollStages av tn).link = s.link := by
  unfold State.pollStages State.pollSelect State.pollUnacknowledged State.pollAcknowledge
  have e1 : ∀ (s : State) f, (s.acknowledge f).link = s.link := by
    intro s f; unfold State.acknowledge; split <;> rfl
  have e2 : ∀ (s : State) f, (s.withdraw f).link = s.link := by
    intro s f; unfold State.withdraw; split <;> rfl
  have e3 : ∀ (s : State) f, (s.dropItem f).link = s.link := by
    intro s f; unfold State.dropItem; split <;> rfl
  have e4 : ∀ (s : State) f, (s.composeItem f).link = s.link := by
    intro s f; unfold State.composeItem; split <;> rfl
  have e5 : ∀ (s : State) f, (s.resendItem f).link = s.link := by
    intro s f; rfl
  repeat' split
  all_goals simp [e1, e2, e3, e4, e5]

end Sys2Proof.Machine
end

