-- ==== Sys2Proof/Laws/Records.lean ====
section
/-! SUPPORT. The journal, the inbound service, and spans of registers. -/

namespace Sys2Proof.Machine

/-- The records that a batch pins. -/
theorem pinFirst_filter : ∀ (k : Nat) (l : List JRecord), (∀ r ∈ l, r.pinned = false) →
    (pinFirst k l).filter (·.pinned) = ((l.filter (·.wantRemote)).take k).map (fun r => { r with pinned := true }) ∧
    (pinFirst k l).map (fun r => { r with pinned := false }) = l
  | 0, l, h => by
    have e : l.filter (·.pinned) = [] := by simp only [List.filter_eq_nil_iff]; intro r hr; simp [h r hr]
    have e2 : ∀ l : List JRecord, (∀ r ∈ l, r.pinned = false) → l.map (fun r => { r with pinned := false }) = l := by
      intro l h
      induction l with
      | nil => rfl
      | cons r t ih => 
        rw [List.map_cons, ih (fun x hx => h x (by simp [hx]))]
        have := h r (by simp)
        cases r; simp_all
    simp [pinFirst, e]; exact e2 l h
  | k+1, [], h => by simp [pinFirst]
  | k+1, r :: t, h => by
    have hr : r.pinned = false := h r (by simp)
    have ht : ∀ x ∈ t, x.pinned = false := fun x hx => h x (by simp [hx])
    unfold pinFirst
    split
    · rename_i hw
      have ⟨a, b⟩ := pinFirst_filter k t ht
      refine ⟨?_, ?_⟩
      · simp [hw, a]
      · rw [List.map_cons, b]; cases r; simp_all
    · rename_i hw
      have ⟨a, b⟩ := pinFirst_filter (k+1) t ht
      refine ⟨?_, ?_⟩
      · simp [hw, hr, a]
      · rw [List.map_cons, b]; cases r; simp_all

theorem firstReady_some (ob : Outbound) (p : Fin 6 → Bool) (i : Fin 6) :
    ob.firstReady p = some i ↔ (p i = true ∧ ob.boxes[i].state = .ready ∧ ∀ j, j < i → ¬(p j = true ∧ ob.boxes[j].state = .ready)) := by
  unfold Outbound.firstReady
  revert i
  have : ∀ q : Fin 6 → Bool, ∀ i, (List.finRange 6).find? q = some i ↔ (q i = true ∧ ∀ j, j < i → q j = false) := by decide +revert
  intro i
  rw [this]
  simp [and_assoc]

theorem firstReady_none (ob : Outbound) (p : Fin 6 → Bool) :
    ob.firstReady p = none ↔ ∀ j, ¬(p j = true ∧ ob.boxes[j].state = .ready) := by
  unfold Outbound.firstReady; simp

theorem presented_isNone (l : List JRecord) : (l.find? (·.wantLocal)).isNone = !l.any (·.wantLocal) := by
  induction l with
  | nil => rfl
  | cons a t ih => rw [List.find?_cons, List.any_cons]; cases h : a.wantLocal <;> simp [ih]

/-- What presenting the next record does to the loss counters. -/
theorem represent_eq (j : Journal) : j.represent = { j with
    presentedLoss := if j.list.any (·.wantLocal) then j.localLost else 0
    localLost := if j.list.any (·.wantLocal) then 0 else j.localLost } := by
  unfold Journal.represent Journal.presented
  have := presented_isNone j.list
  cases h : j.list.find? (·.wantLocal) with
  | none => rw [h] at this; have : j.list.any (·.wantLocal) = false := by simpa using this
            rw [this]; rfl
  | some r => rw [h] at this; have : j.list.any (·.wantLocal) = true := by simpa using this
              rw [this]; rfl

/-- What appending a record does. -/
theorem append_record_eq (r : JRecord) (j : Journal) : j.append r =
    if r.wantLocal && !j.list.any (·.wantLocal) then
      { j with list := j.list ++ [r], nextSeq := j.nextSeq + 1, presentedLoss := j.localLost, localLost := 0 }
    else { j with list := j.list ++ [r], nextSeq := j.nextSeq + 1 } := by
  unfold Journal.append Journal.presented
  rw [presented_isNone]
  dsimp only
  by_cases h : (r.wantLocal && !j.list.any (·.wantLocal)) = true
  · rw [if_pos h, if_pos h, represent_eq]
    have : r.wantLocal = true := by simp at h; exact h.1
    simp [this]
  · rw [if_neg h, if_neg h]

/-- The match test of a filter entry, bit by bit (R117). -/
theorem accepts_iff (f : Filter) (chan : Byte) : f.accepts chan = true ↔ (f.en = true ∧ ∀ b : Fin 6, f.mask.getLsbD b.val = true → chan.getLsbD b.val = f.chan.getLsbD b.val) := by
  unfold Filter.accepts
  simp only [Bool.and_eq_true, beq_iff_eq]
  apply and_congr_right
  intro _
  constructor
  · intro h b hb
    have := congrArg (fun x => x.getLsbD b.val) h
    simp only [BitVec.getLsbD_and, hb, Bool.and_true] at this
    simpa [b.isLt] using this
  · intro h
    apply BitVec.eq_of_getLsbD_eq
    intro i hi
    have := h ⟨i, hi⟩
    simp [hi] at this ⊢
    intro h1; by_contra h2; apply h1; apply this; simpa using h2

/-- What an accepted delivery can change. -/
theorem applyDelivery_eq (chan payload v stores br) (s : State) : s.applyDelivery chan payload v stores br = { s with
    ib := if stores then s.ib.store chan payload v.filt br s.stamp else s.ib
    lm := if v.action.lamps then s.lm.payload payload else s.lm
    ia := match v.notify with | some i => { s.ia with fHit := s.ia.fHit ||| bit true i.val, flags1 := s.ia.flags1 ||| fHitFlag } | none => s.ia } := by
  unfold State.applyDelivery
  dsimp only
  cases stores <;> cases v.action.lamps <;> cases v.notify <;> rfl

theorem addr_succ (addr : Byte) (i : Nat) : addr + BitVec.ofNat 8 (i + 1) = addr + 1 + BitVec.ofNat 8 i := by
  apply BitVec.eq_of_toNat_eq; simp; omega

/-- The first byte of a POKE that fails. -/
theorem firstRefusal_at : ∀ (data : List Byte) (addr : Byte) (s : State),
    let reg (i : Nat) : Reg := regAt (addr + BitVec.ofNat 8 i)
    let judged (i : Nat) : State :=
      (List.range i).foldl
        (fun acc j =>
          if reg j = .fsel ∨ reg j = .mbsel ∨ reg j = .lsel then acc.applyWrite .head (reg j) (byteAt data j) else acc) s
    (∀ (i : Nat) (c : Cause), i < data.length → (judged i).check .head (reg i) (byteAt data i) = some c →
        (∀ j < i, (judged j).check .head (reg j) (byteAt data j) = none) → s.firstRefusal addr data = some (c, addr + BitVec.ofNat 8 i)) ∧
    ((∀ j < data.length, (judged j).check .head (reg j) (byteAt data j) = none) → s.firstRefusal addr data = none)
  | [], addr, s => by simp [State.firstRefusal]
  | v :: rest, addr, s => by
    intro reg judged
    have ih := firstRefusal_at rest (addr + 1) (s.preselect (regAt addr) v)
    have h0 : reg 0 = regAt addr := by simp [reg]
    have hp : s.preselect (regAt addr) v = if reg 0 = .fsel ∨ reg 0 = .mbsel ∨ reg 0 = .lsel then s.applyWrite .head (reg 0) (byteAt (v :: rest) 0) else s := by
      rw [h0]; unfold State.preselect
      cases h : regAt addr <;> simp [byteAt]
    have hj : ∀ i, judged (i + 1) = (List.range i).foldl
        (fun acc j =>
          if reg (j+1) = .fsel ∨ reg (j+1) = .mbsel ∨ reg (j+1) = .lsel then acc.applyWrite .head (reg (j+1)) (byteAt rest j) else acc) (s.preselect (regAt addr) v) := by
      intro i
      simp only [judged]
      rw [List.range_succ_eq_map, List.foldl_cons, List.foldl_map, hp]
      rfl
    have hr : ∀ i, reg (i + 1) = regAt (addr + 1 + BitVec.ofNat 8 i) := by
      intro i; simp only [reg]; rw [addr_succ]
    have hfr : s.firstRefusal addr (v :: rest) = match s.check .head (regAt addr) v with
      | some c => some (c, addr) | none => (s.preselect (regAt addr) v).firstRefusal (addr + 1) rest := by
        rw [State.firstRefusal] <;> rfl
    have hj0 : judged 0 = s := rfl
    constructor
    · intro i c hi hc hlow
      cases i with
      | zero =>
        rw [hj0, h0] at hc
        have : s.check .head (regAt addr) v = some c := hc
        rw [hfr, this]; simp
      | succ i =>
        have h1 := hlow 0 (by omega)
        rw [hj0, h0] at h1
        have h1 : s.check .head (regAt addr) v = none := h1
        rw [hfr, h1]
        dsimp only
        rw [addr_succ]
        apply ih.1 i c (by simpa using hi)
        · rw [hj, hr] at hc
          simp only [hr] at hc
          exact hc
        · intro j hji
          have h2 := hlow (j+1) (by omega)
          rw [hj, hr] at h2
          simp only [hr] at h2
          exact h2
    · intro hall
      have h1 := hall 0 (by simp)
      rw [hj0, h0] at h1
      have h1 : s.check .head (regAt addr) v = none := h1
      rw [hfr, h1]
      dsimp only
      apply ih.2
      intro j hji
      have h2 := hall (j+1) (by simpa using hji)
      rw [hj, hr] at h2
      simp only [hr] at h2
      exact h2

/-- A POKE applies its bytes one after another. -/
theorem writeSpan_fold : ∀ (data : List Byte) (addr : Byte) (s : State),
    s.writeSpan addr data = (List.range data.length).foldl (fun acc j => acc.applyWrite .head (regAt (addr + BitVec.ofNat 8 j)) (byteAt data j)) s
  | [], _, _ => rfl
  | v :: rest, addr, s => by
    rw [State.writeSpan, writeSpan_fold rest, List.length_cons, List.range_succ_eq_map, List.foldl_cons, List.foldl_map]
    have e : ∀ j, addr + BitVec.ofNat 8 (Nat.succ j) = addr + 1 + BitVec.ofNat 8 j := fun j => addr_succ addr j
    simp only [e]
    have e0 : addr + BitVec.ofNat 8 0 = addr := by simp
    rw [e0]
    rfl

/-- The capture addresses (R14). -/
theorem captureAt_eq : ∀ a : Byte, captureAt a = if a = 0x0C#8 then some .localTime else if a = 0x38#8 then some .journal else if a = 0x44#8 then some .inbound
   else if a = 0x6F#8 then some .mbPeriod else if a = 0x98#8 then some .keymap else none := by decide

theorem bit_getLsb (b : Bool) (n i : Nat) (hi : i < 8) (hn : n < 8) : (bit b n).getLsbD i = (b && decide (i = n)) := by
  interval_cases n <;> interval_cases i <;> cases b <;> decide

/-- The READY bitmap, bit by bit. -/
theorem readyMap_bit (ob : Outbound) (i : Nat) (hi : i < 8) : ob.readyMap.getLsbD i = (if h : i < 6 then ob.boxes[(⟨i, h⟩ : Fin 6)].state == .ready else false) := by
  unfold Outbound.readyMap
  rw [show List.finRange 6 = [0,1,2,3,4,5] from rfl]
  simp only [List.foldl_cons, List.foldl_nil, BitVec.getLsbD_or]
  have e0 : ((0 : Fin 6) : Nat) = 0 := rfl
  have e1 : ((1 : Fin 6) : Nat) = 1 := rfl
  have e2 : ((2 : Fin 6) : Nat) = 2 := rfl
  have e3 : ((3 : Fin 6) : Nat) = 3 := rfl
  have e4 : ((4 : Fin 6) : Nat) = 4 := rfl
  have e5 : ((5 : Fin 6) : Nat) = 5 := rfl
  rw [e0, e1, e2, e3, e4, e5]
  simp only [bit_getLsb _ _ i hi (show 0 < 8 by omega), bit_getLsb _ _ i hi (show 1 < 8 by omega), bit_getLsb _ _ i hi (show 2 < 8 by omega), bit_getLsb _ _ i hi (show 3 < 8 by omega), bit_getLsb _ _ i hi (show 4 < 8 by omega), bit_getLsb _ _ i hi (show 5 < 8 by omega), BitVec.getLsbD_zero]
  interval_cases i <;> simp

end Sys2Proof.Machine
end

