-- ==== Sys2Proof/Laws/Time.lean ====
section
/-! SUPPORT. What a tick can do, position by position. -/

namespace Sys2Proof.Machine

/-- States with the same journal, stamp, link test and flags record events alike. -/
theorem recordAll_congr (es : List Event) (a b : State) (hj : a.jr = b.jr) (hl : a.linkOn = b.linkOn)
    (ht : a.stamp = b.stamp) (hf : a.ia.flags1 = b.ia.flags1) :
    (a.recordAll es).jr = (b.recordAll es).jr ∧ (a.recordAll es).ia.flags1 = (b.recordAll es).ia.flags1 := by
  induction es generalizing a b with
  | nil => exact ⟨hj, hf⟩
  | cons e rest ih =>
    rw [recordAll_cons, recordAll_cons]
    have h1 := record_eq a e
    have h2 := record_eq b e
    refine ih _ _ ?_ ?_ ?_ ?_ <;> rw [h1, h2]
    · simp only [hj, hl, ht]
    · exact hl
    · exact ht
    · simp only [hj, hl, ht, hf]

/-- The positions of a tick after the link timers, in RUN, DOZE and SETTLING. -/
theorem tick_rest (sns : BitVec 4) (a : State) (ha : a.awake = true) :
    a.tickRefresh.tickLamps.tickScan.tickSense sns = { a with
      ob.boxes := tabulate fun i => a.ob.boxes[i].tick
      lm := a.lm.tick
      ks := a.ks.tick a.pr.state
      st := a.st.sampleAll sns
      jr := (a.recordAll (a.lm.tickEvents ++ a.st.sampleEvents sns)).jr
      ia.flags0 := a.ia.flags0 ||| if (∃ i : Fin 6, a.ob.boxes[i].stale = true) then mbStaleFlag else 0#8
      ia.flags1 := (a.recordAll (a.lm.tickEvents ++ a.st.sampleEvents sns)).ia.flags1 } := by
  have h1 : a.tickRefresh = { a with ob.boxes := tabulate fun i => a.ob.boxes[i].tick, ia.flags0 := a.ia.flags0 ||| if (∃ i : Fin 6, a.ob.boxes[i].stale = true) then mbStaleFlag else 0#8 } := by
    unfold State.tickRefresh State.tickMailboxes
    simp only [ha, if_true]
    by_cases h : ∃ i : Fin 6, a.ob.boxes[i].stale = true
    · rw [if_pos h, if_pos (by simpa [List.any_eq_true] using h)]; rfl
    · rw [if_neg h, if_neg (by simpa [List.any_eq_true] using h)]; simp
  generalize hb : a.tickRefresh = b at *
  have hba : b.awake = true := by rw [h1]; exact ha
  have h2 : b.tickLamps = ({ b with lm := b.lm.tick } : State).recordAll b.lm.tickEvents := by
    unfold State.tickLamps; rw [if_pos hba]
  rw [h2]
  unfold State.tickScan State.tickSense
  simp only [recordAll_ks, recordAll_pr, recordAll_st]
  have hp : b.pr = a.pr := by rw [h1]
  have key : ∀ (c : State) es, c = { ({ b with lm := b.lm.tick } : State).recordAll b.lm.tickEvents with ks := b.ks.tick b.pr.state, st := b.st.sampleAll sns } → (c.recordAll es).jr = (a.recordAll (a.lm.tickEvents ++ es)).jr ∧ (c.recordAll es).ia.flags1 = (a.recordAll (a.lm.tickEvents ++ es)).ia.flags1 := by
    intro c es hc
    rw [recordAll_append]
    have h3 := recordAll_congr b.lm.tickEvents ({ b with lm := b.lm.tick } : State) a (by rw [h1]) (by rw [h1]; rfl) (by rw [h1]; rfl) (by rw [h1])
    have hlm : a.lm = b.lm := by rw [h1]
    refine recordAll_congr es _ _ ?_ ?_ ?_ ?_
    · rw [hc, hlm]; exact h3.1
    · rw [hc]; simp [State.linkOn]; rw [h1]
    · rw [hc]; simp [State.stamp, Sense.sampleAll]; rw [h1]
    · rw [hc, hlm]; exact h3.2
  have hk := key _ (b.st.sampleEvents sns) rfl
  have fin : ∀ c : State, c = { ({ b with lm := b.lm.tick } : State).recordAll b.lm.tickEvents with ks := b.ks.tick b.pr.state, st := b.st.sampleAll sns } → c.recordAll (b.st.sampleEvents sns) = { a with
      ob.boxes := tabulate fun i => a.ob.boxes[i].tick
      lm := a.lm.tick
      ks := a.ks.tick a.pr.state
      st := a.st.sampleAll sns
      jr := (a.recordAll (a.lm.tickEvents ++ a.st.sampleEvents sns)).jr
      ia.flags0 := a.ia.flags0 ||| if (∃ i : Fin 6, a.ob.boxes[i].stale = true) then mbStaleFlag else 0#8
      ia.flags1 := (a.recordAll (a.lm.tickEvents ++ a.st.sampleEvents sns)).ia.flags1 } := by
    intro c hc
    have hst : b.st = a.st := by rw [h1]
    rw [recordAll_eq, hc, hk.1, hk.2, hst]
    rw [recordAll_eq]
    simp only [h1]
  split
  · rename_i hs; exact fin _ (by simp [hs])
  · rename_i hs; exact fin _ (by simp [hs])
  · rename_i hs; exact fin _ (by simp [hs])
  · simp_all [State.awake, PowerState.awake]
  · simp_all [State.awake, PowerState.awake]

/-- The first two positions of a tick: local time and the link timers. -/
def tickFront (s : State) : State := s.tickTime.tickWatchdog.tickQuiet

/-- The first position of a tick outside WAKING: local time. -/
theorem tickTime_awake (s : State) (ha : s.awake = true) :
    s.tickTime = { s with st.localTime := s.st.localTime + 1 } := by
  unfold State.tickTime
  rw [if_neg]
  intro h; simp [State.awake, h, PowerState.awake] at ha

theorem returnToSource_linkOn (s : State) : s.returnToSource.linkOn = s.linkOn := by unfold State.linkOn; simp

/-- What the first two positions leave alone. -/
theorem tickFront_facts (s : State) (ha : s.awake = true) :
    (tickFront s).jr = s.tickBase.jr ∧ (tickFront s).linkOn = s.tickBase.linkOn ∧ (tickFront s).st = { s.st with localTime := s.st.localTime + 1 } ∧
    (tickFront s).ia.flags1 = s.tickBase.ia.flags1 ∧ (tickFront s).lm = s.lm ∧ (tickFront s).ks = s.ks ∧ (tickFront s).pr = s.pr ∧ s.tickBase.stamp = (s.st.localTime + 1).setWidth 16 ∧ (tickFront s).ob = s.tickBase.ob := by
  unfold tickFront
  rw [tickTime_awake s ha]
  set a : State := { s with st.localTime := s.st.localTime + 1 } with hadef
  have hw : a.watchdogExpires = s.watchdogExpires := rfl
  have hq : ∀ b : State, b.tickQuiet.jr = b.jr ∧ b.tickQuiet.st = b.st ∧ b.tickQuiet.ia.flags1 = b.ia.flags1 ∧ b.tickQuiet.lm = b.lm ∧ b.tickQuiet.ks = b.ks ∧ b.tickQuiet.pr = b.pr ∧ b.tickQuiet.linkOn = b.linkOn ∧ b.tickQuiet.ob = b.ob := by
    intro b
    unfold State.tickQuiet
    split
    · rename_i h
      refine ⟨rfl, rfl, rfl, rfl, rfl, rfl, ?_, rfl⟩
      have : b.link.state = .hushed := by revert h; simp [State.quietExpires]; tauto
      simp [State.linkOn, this]; rfl
    · split
      · split <;> exact ⟨rfl, rfl, rfl, rfl, rfl, rfl, rfl, rfl⟩
      · exact ⟨rfl, rfl, rfl, rfl, rfl, rfl, rfl, rfl⟩
      · exact ⟨rfl, rfl, rfl, rfl, rfl, rfl, rfl, rfl⟩
  obtain ⟨q1, q2, q3, q4, q5, q6, q7, q8⟩ := hq a.tickWatchdog
  rw [q1, q2, q3, q4, q5, q6, q7, q8]
  have hrt : a.returnToSource = { s.returnToSource with st.localTime := s.st.localTime + 1 } := by
    unfold State.returnToSource
    show (match s.ob.inFlight with | none => a | some f => _) = _
    cases s.ob.inFlight with
    | none => rfl
    | some f => cases f with | mk it tu re => cases it <;> rfl
  unfold State.tickWatchdog State.tickBase
  rw [hw]
  cases hwe : s.watchdogExpires
  · simp only [Bool.false_eq_true, if_false]
    split <;> exact ⟨rfl, rfl, rfl, rfl, rfl, rfl, rfl, rfl, rfl⟩
  · simp only [if_true]
    unfold State.loseHead State.stopTimers
    rw [hrt]
    have : s.linkOn = true := by
      revert hwe; simp [State.watchdogExpires, State.watchdogRuns, State.linkOn]; intro h; rcases h with h | h <;> simp [h]
    refine ⟨rfl, ?_, ?_, rfl, ?_, ?_, ?_, ?_, rfl⟩
    · show _ = s.returnToSource.linkOn
      rw [returnToSource_linkOn, this]; rfl
    all_goals (rw [returnToSource_eq]; rfl)

/-- A whole tick in RUN, DOZE and SETTLING. -/
theorem tick_awake (sns : BitVec 4) (s : State) (ha : s.awake = true) :
    s.tick sns = { tickFront s with
      ob.boxes := tabulate fun i => (tickFront s).ob.boxes[i].tick
      lm := s.lm.tick
      ks := s.ks.tick s.pr.state
      st := { (s.st.sampleAll sns) with localTime := s.st.localTime + 1 }
      jr := (s.tickBase.recordAll (s.lm.tickEvents ++ s.st.sampleEvents sns)).jr
      ia.flags0 := (tickFront s).ia.flags0 ||| if (∃ i : Fin 6, (tickFront s).ob.boxes[i].stale = true) then mbStaleFlag else 0#8
      ia.flags1 := (s.tickBase.recordAll (s.lm.tickEvents ++ s.st.sampleEvents sns)).ia.flags1 } := by
  obtain ⟨f1, f2, f3, f4, f5, f6, f7, f8, f9⟩ := tickFront_facts s ha
  have : s.tick sns = (tickFront s).tickRefresh.tickLamps.tickScan.tickSense sns := rfl
  rw [this, tick_rest sns (tickFront s) (by unfold State.awake; rw [f7]; exact ha)]
  have hr := recordAll_congr ((tickFront s).lm.tickEvents ++ (tickFront s).st.sampleEvents sns) (tickFront s) s.tickBase f1 f2 (by rw [f8]; simp [State.stamp, f3]) f4
  rw [hr.1, hr.2, f5, f6, f3, show (tickFront s).pr.state = s.pr.state by rw [f7]]
  rfl

/-- In SLEEP and WAKING the positions before the scan clock advance local time alone. -/
theorem tickFront_asleep (s : State) (ha : s.awake = false) : s.tickTime.tickWatchdog.tickQuiet.tickRefresh.tickLamps = s.tickTime := by
  have h1 : s.tickTime.awake = false := ha
  have h2 : s.tickTime.watchdogRuns = false := by simp [State.watchdogRuns, h1]
  have h3 : s.tickTime.watchdogExpires = false := by simp [State.watchdogExpires, h2]
  have h4 : s.tickTime.tickWatchdog = s.tickTime := by simp [State.tickWatchdog, h2, h3]
  rw [h4]
  have h5 : s.tickTime.tickQuiet = s.tickTime := by
    simp only [State.tickQuiet, State.quietExpires, h1]; simp; split <;> rfl
  rw [h5]
  simp [State.tickRefresh, State.tickLamps, h1]

end Sys2Proof.Machine
end

