-- ==== Sys2Proof/Tests/Slice0.lean ====
section
/-! SUPPORT. Tests: the checks of WellFormed refuse ill-formed commands; commands on small states, with results computed by hand
from the manual; and for each statement with hypotheses a concrete state that meets them. -/

namespace Sys2Proof.Tests

open Sys2Proof.Machine

-- one theorem after another: many at once need many threads
set_option Elab.async false

/-! ### WellFormed refuses -/

theorem test_wf_empty_frame : (Instr.frameCompletion []).wellFormed = false := by decide
theorem test_wf_beacon_without_wake : (Instr.linkWakeRequest (.beacon 0x01#8 0)).wellFormed = false := by decide
theorem test_wf_new_address_31 : (Instr.rollcallBySerial 0 31#8).wellFormed = false := by decide
theorem test_wf_long_deliver : (Instr.deliver 0 0 (List.replicate 17 0)).wellFormed = false := by decide
theorem test_wf_long_broadcast : (Instr.broadcastDeliver 0 0 (List.replicate 17 0)).wellFormed = false := by decide
theorem test_wf_empty_poke : (Instr.poke 0 []).wellFormed = false := by decide
theorem test_wf_long_poke : (Instr.poke 0 (List.replicate 17 0)).wellFormed = false := by decide
theorem test_wf_clash_head_kind : (Instr.clash 0x7 []).wellFormed = false := by decide
theorem test_wf_clash_unassigned_kind : (Instr.clash 0xE []).wellFormed = false := by decide
theorem test_wf_clash_long_body : (Instr.clash 0x9 (List.replicate 49 0)).wellFormed = false := by decide
theorem test_wf_status_is_assigned : (Instr.unassignedCommand 0xA8#8).wellFormed = false := by decide
theorem test_wf_wake_is_assigned : (Instr.unassignedCommand 0xAF#8).wellFormed = false := by decide
theorem test_wf_write_with_own_row : (Instr.registerWrite .host 0x06#8 0#8).wellFormed = false := by decide
theorem test_wf_write_of_lgo : (Instr.registerWrite .head 0xBA#8 4#8).wellFormed = false := by decide
theorem test_wf_write_of_lgo_unassigned : (Instr.registerWrite .head 0xBA#8 5#8).wellFormed = true := by decide

/-- The table gives no row bits, so no word spells a command. -/
theorem test_no_row_gives_bits : decodeTableWord 8 0xA0 = none := by decide

/-! ### Small states -/

/-- The state that a command leaves. -/
def after (c : Instr) (s : State) : State :=
  match exec c s with
  | .next t => t
  | .fault _ | .refused _ => s

/-- A byte of an SPI transaction completes in phase `p`, with the pointer at `a`. -/
def atByte (p : Phase) (a : Byte) : State :=
  { State.reset with pins.csnLow := true, hp.phase := p, hp.pointer := a }

/-- The data byte of a WRITE completes at `a`. -/
def hostAt (a : Byte) : State := atByte .writeData a

/-- A frame to a part at address 5 whose link is in state `st` is about to complete. -/
def onLink (st : LinkState) : State :=
  { State.reset with link := { State.reset.link with en := true, state := st, addr := 5, rx := Receiver.start } }

/-- The head owns every group. -/
def ownedByHead (s : State) : State := { s with own.owner := 0x3F#6 }

/-- The part is in power state `p`, for a reason that asks for sleep. -/
def inPower (p : PowerState) (s : State) : State := { s with pr.state := p, pr.power := 2 }

/-- The scanner is enabled with DEBOUNCE 1, and a scan of length 16 is due. -/
def scanning : State := { State.reset with ks := { State.reset.ks with en := true, debounce := 1, clock := 16, due := true } }

/-- `scanning` with key `k` in state `st`, its times 0. -/
def withKey (k : Fin 48) (st : KeyState) (s : State) : State :=
  { s with ks.keys := s.ks.keys.set k { Key.up with state := st } }

/-- `s` with mailbox `i` in state `st`. -/
def withBox (i : Fin 6) (st : MbState) (s : State) : State :=
  { s with ob.boxes := s.ob.boxes.set i { s.ob.boxes[i] with state := st } }

/-- `s` with lamp `n` in phase `p`, one tick from its end. -/
def withLamp (n : Fin 12) (p : LampPhase) (s : State) : State :=
  { s with lm.lamps := s.lm.lamps.set n { s.lm.lamps[n] with phase := p, level := 9, remaining := 1 } }

/-- Input 3 enabled, primed and set to wake, with DEBOUNCE `d` and its counter at `c`. -/
def withInput (d : BitVec 4) (c : Nat) (s : State) : State :=
  { s with st.inputs := s.st.inputs.set 3 {
      en := true, edge := .both, wake := true, debounce := d, primed := true, level := false, counter := c } }

/-- A journal record that both consumers want. -/
def record : JRecord :=
  { seq := 7, kind := .keyDown, subject := 3, detail := 0, stamp := 0, wantLocal := true, wantRemote := true, pinned := false }

/-- `s` with these journal records, the head's copy of the oldest in flight as a batch with turn 6. -/
def withBatch (l : List JRecord) (s : State) : State :=
  { s with
    jr.list := l, jr.batch := some 2, ob.nextTurn := 6
    ob.inFlight := some { item := .batch, turn := 6, resends := 6 } }

/-- `s` with mailbox 5 in flight with turn 7, `r` resends behind it. -/
def withOffer (r : Nat) (s : State) : State :=
  { (withBox 5 .offered s) with ob.nextTurn := 7, ob.inFlight := some { item := .mailbox 5, turn := 7, resends := r } }

/-- What `State.Ready` says, as a proposition that can be decided. -/
theorem ready_iff (s : State) :
    s.Ready ↔ s.held = false ∧ s.restartWaits = false ∧ s.oscillatorDue = false ∧ s.scanWaits = false :=
  ⟨fun h => ⟨h.running, h.settled.restart, h.settled.oscillator, h.settled.scan⟩, fun ⟨a, b, c, d⟩ => ⟨a, b, c, d⟩⟩

/-- What `State.ScanReady` says, as a proposition that can be decided. -/
theorem scanReady_iff (s : State) : s.ScanReady ↔ s.held = false ∧ s.restartWaits = false ∧ s.ks.due = true :=
  ⟨fun h => ⟨h.running, h.restart, h.due⟩, fun ⟨a, b, c⟩ => ⟨a, b, c⟩⟩

/-- A state with nothing due, whose pins do not hold it in reset. -/
theorem ready_rfl {s : State} (held : s.held = false) (restart : s.restartWaits = false)
    (oscillator : s.oscillatorDue = false) (scan : s.scanWaits = false) : s.Ready :=
  (ready_iff s).mpr ⟨held, restart, oscillator, scan⟩

theorem atByte_ready (p : Phase) (a : Byte) : (atByte p a).byteReady p := ⟨ready_rfl rfl rfl rfl rfl, rfl, rfl⟩
theorem hostAt_ready (a : Byte) : (hostAt a).writeReady .host a := ⟨rfl, atByte_ready _ _, rfl⟩
theorem onLink_ready (st : LinkState) (h : st ≠ .off) : (onLink st).frameReady := by
  cases st with
  | off => exact absurd rfl h
  | listen | joined | hushed | clashed => exact ⟨ready_rfl rfl rfl rfl rfl, rfl, rfl⟩
theorem onLink_addressed (st : LinkState) : (onLink st).addressed := ⟨by cases st <;> decide, by cases st <;> decide⟩
theorem joined_writes (a : Byte) : (onLink .joined).writeReady .head a :=
  ⟨rfl, onLink_ready .joined (by decide), rfl, onLink_addressed .joined⟩

/-! ### Commands, one step each -/

/-- R2: a pending restart with no reply left is taken before a tick, whose count of local time it keeps. -/
theorem test_restart_before_tick :
    let s : State := { State.reset with own := { owner := 1, rlock := 1, restartPending := true } }
    (after (.msTick 0) s).own.rlock = 0#6 ∧ (after (.msTick 0) s).st.localTime = 1#32 := by decide +kernel

/-- R2, R190: in the second tick of WAKING the oscillator is ready; a tick that comes next is a tick in RUN. -/
theorem test_oscillator_before_tick :
    (after (.msTick 0) { (inPower .waking State.reset) with
      pr.state := .waking, pr.wakeTicks := 2, pr.request := some (.host, 0) }).pr.state = .run := by decide +kernel

/-- R2, R134: a due scan is taken before a tick, so the scan clock is 1 after both. -/
theorem test_scan_before_tick : (after (.msTick 0) scanning).ks.clock = 1 := by decide +kernel

/-- R23: 0x3B on the line: a start bit at low level, 1 1 0 1 1 1 0 0, a stop bit at high level. -/
theorem test_line_levels :
    (List.range 11).map { (onLink .joined) with link.tx := .transmitting [0x3B#8] }.linkTx =
      [false, true, true, false, true, true, true, false, false, true, true] := by decide +kernel

/-- R163: a lamp in FOLLOW_LIT at level 9 sinks for 9/15 of the time, and not at all in SLEEP. -/
theorem test_lamp_duty :
    let s := withLamp 11 .followLit State.reset
    s.lampDuty 11 = 9 ∧ (inPower .sleep s).lampDuty 11 = 0 := by decide

/-- R132: MATRIX 0x25 uses three drive lines. -/
theorem test_drive_lines :
    let s : State := { scanning with ks.drives := 2 }
    s.driveInUse 2 = true ∧ s.driveInUse 3 = false := by decide

/-- R64: RESTART written by the head, with a byte after it, restarts nothing in the POKE's own step. -/
theorem test_remote_restart_pends :
    let t := after (.poke 0x05#8 [1#8, 0x3E#8]) (ownedByHead (onLink .joined))
    t.own.restartPending = true ∧ t.own.owner = 0x3E#6 ∧ t.link.state = .joined := by decide +kernel

/-- R48: the return to JOINED at the end of the quiet period restarts the watchdog. -/
theorem test_quiet_end_restarts_watchdog :
    let s : State := { (onLink .hushed) with link.quiet := .left 1, link.watchdog := 40 }
    (after (.quietPeriodExpiry 0) { s with link.rx := Receiver.awaiting }).link.watchdog = 0 := by decide +kernel

/-- R26: the check value of this CRC over "123456789" is 0x29B1. -/
theorem test_crc : crc [0x31, 0x32, 0x33, 0x34, 0x35, 0x36, 0x37, 0x38, 0x39] = 0x29B1#16 := by decide +kernel

/-- R42: a strap address of 31 is taken as 0. -/
theorem test_strap_31 : (after (.powerOnReset ⟨31, true, 2⟩) State.reset).link.addr = 0#5 := by decide +kernel

/-- R194: the hostless arrangement starts in LISTEN. -/
theorem test_hostless_listens : (after (.pinReset ⟨3, true, 2⟩) State.reset).link.state = .listen := by decide +kernel

/-- R192, R193: a soft restart keeps local time. -/
theorem test_soft_restart_keeps_time :
    (after .softRestart { hostAt 0x05#8 with st.localTime := 77 }).st.localTime = 77#32 := by decide +kernel

/-- R156: local time wraps. -/
theorem test_local_time_wraps :
    (after (.msTick 0) { State.reset with st.localTime := 0xFFFFFFFF#32 }).st.localTime = 0#32 := by decide +kernel

/-- R152: the DEBOUNCE-th differing sample flips. -/
theorem test_sense_flip : ((after (.senseFlip 3 8#4) (withInput 2 1 State.reset)).st.inputs[3]).level = true := by decide +kernel

/-- R48: SILENCE 1 expires at the 20th tick. -/
theorem test_watchdog_expires :
    (after (.silenceWatchdogExpiry 0)
      { onLink .joined with link.silence := 1, link.watchdog := 19 }).link.state = .listen := by decide +kernel
theorem test_watchdog_not_yet :
    (after (.msTick 0) { onLink .joined with link.silence := 1, link.watchdog := 18 }).link.state = .joined := by decide +kernel

/-- R45: a quiet period of 1 ms ends at the first tick. -/
theorem test_quiet_period_ends :
    (after (.quietPeriodExpiry 0) { onLink .hushed with link.quiet := .left 1 }).link.state = .joined := by decide +kernel

/-- R171: a blink with one flash left goes OFF. -/
theorem test_last_flash :
    let s := withLamp 11 .blinkLit State.reset
    ((after (.phaseEnd 11 0) { s with lm.lamps := s.lm.lamps.set 11 { s.lm.lamps[11] with count := 1 } }).lm.lamps[11]).phase
      = .off := by decide +kernel

/-- R141: a pressed key becomes DOWN at its DEBOUNCE-th reading. -/
theorem test_press : ((after (.debouncedPress 47 (1#48 <<< 47)) scanning).ks.keys[47]).state = .down := by decide +kernel

/-- R138: a released key returns to UP. -/
theorem test_release : ((after (.debouncedRelease 1 0) (withKey 1 .down scanning)).ks.keys[1]).state = .up := by decide +kernel

/-- R135: a key outside the used area stays UP (key 6 of 8 drives by 6 senses is drive 1, sense 0; with one drive it is unused). -/
theorem test_unused_key :
    ((after (.scanCompletion (1#48 <<< 6)) { scanning with ks.drives := 0 }).ks.keys[6]).state = .up := by decide +kernel

/-- R190: the oscillator-ready event waits for the second tick. -/
theorem test_oscillator_ready :
    (after .oscillatorReady { inPower .waking State.reset with
      pr.request := some (.host, 0), pr.wakeTicks := 2 }).pr.cause = .host := by decide +kernel
theorem test_oscillator_not_yet :
    (after .oscillatorReady { inPower .waking State.reset with
      pr.request := some (.host, 0), pr.wakeTicks := 1 }).pr.state = .waking := by decide +kernel

/-- R49: SETTIME loads the time even at address 0 in CLASHED. -/
theorem test_beacon_sets_time :
    (after (.beacon 1#8 0x01020304#32) { onLink .clashed with link.addr := 0 }).st.localTime = 0x01020304#32 := by decide +kernel

/-- R43: SESSION wraps from 255 to 0. -/
theorem test_session_wraps :
    (after .rollcall { onLink .listen with link.session := 255 }).link.session = 0#8 := by decide +kernel

/-- R31: the first accepted DELIVER carries turn 0; the RECEIPT asks for turn 1. Bytes by hand: DEST 0, SRC 5, kind 0xC, LEN 5,
code 0, detail 0, the digest of an empty journal, 12 free slots, no READY mailbox; then the CHECK. -/
theorem test_deliver_receipt :
    (after (.deliver 0 9#8 [1#8]) { onLink .joined with ib.lastTurn := 7 }).link.tx =
      .pending (withCheck [0x00, 0x05, 0xC1, 0x05, 0x00, 0x00, 0x00, 0x0B, 0x00]) := by decide +kernel

/-- R114: the same turn again is a duplicate (code 0x01), and nothing is stored. -/
theorem test_duplicate_delivery :
    (after (.deliver 7 9#8 [1#8]) { onLink .joined with ib.lastTurn := 7 }).ib.queue = [] := by decide +kernel

/-- R58: a count of 17 is out of range: RECEIPT 0x13 with the start address. -/
theorem test_peek_count_17 :
    (after (.peek 0x20#8 17#8) (onLink .joined)).link.tx =
      .pending (withCheck [0x00, 0x05, 0xC0, 0x05, 0x13, 0x20, 0x00, 0x0C, 0x00]) := by decide +kernel

/-- R59: IDENT and REVISION read 0x3B and 0x02. -/
theorem test_peek_ident :
    (after (.peek 0x00#8 2#8) (onLink .joined)).link.tx =
      .pending (withCheck [0x00, 0x05, 0xD0, 0x06, 0x00, 0x3B, 0x02, 0x00, 0x0C, 0x00]) := by decide +kernel

/-- R61: a POKE whose second byte fails writes nothing. -/
theorem test_poke_all_or_nothing :
    ((after (.poke 0xB0#8 [3#8, 9#8]) (ownedByHead (onLink .joined))).head.lsel) = 0 := by decide +kernel
theorem test_poke_writes :
    ((after (.poke 0xB0#8 [3#8, 1#8]) (ownedByHead (onLink .joined))).lm.lamps[3]).ctrl = .remoteOnly := by decide +kernel

/-- R106: a POLL with nothing waiting draws NOTHING. -/
theorem test_poll_nothing :
    (after (.poll false 0) (onLink .joined)).link.tx =
      .pending (withCheck [0x00, 0x05, 0xB0, 0x03, 0x00, 0x0C, 0x00]) := by decide +kernel

/-- R106: a READY mailbox is answered with the next turn: type 1, index 2, channel 0, length 0. -/
theorem test_poll_mailbox :
    (after (.poll false 0) { withBox 2 .ready (onLink .joined) with ob.nextTurn := 6 }).link.tx =
      .pending (withCheck [0x00, 0x05, 0xA6, 0x07, 0x00, 0x0C, 0x00, 0x01, 0x02, 0x00, 0x00]) := by decide +kernel

/-- R46: a satellite frame with the own address clashes. -/
theorem test_clash : (after (.clash 0xB []) (onLink .listen)).link.state = .clashed := by decide +kernel

/-- R27: a frame of five bytes is a format error. -/
theorem test_short_frame :
    (after (.frameCompletion (List.replicate 5 ⟨0, false⟩)) (onLink .listen)).link.formErr = 1#8 := by decide +kernel

/-- R27: a frame with a wrong CHECK is counted by CRCERR. -/
theorem test_bad_check :
    (after (.frameCompletion (List.replicate 6 ⟨0, false⟩)) (onLink .listen)).link.crcErr = 1#8 := by decide +kernel

/-- R37: a frame start cancels a pending reply. -/
theorem test_frame_start_cancels :
    (after .frameStart { onLink .joined with link.tx := .pending [1], link.rx.cond := .hunting }).link.collide = 1#8 := by
  decide +kernel

/-- R5: a READ in SLEEP is ignored. -/
theorem test_read_in_sleep : (after .read (inPower .sleep (atByte .awaitCommand 0))).hp.phase = .ignore := by decide +kernel

/-- R7: the turnaround byte fetches IDENT. -/
theorem test_turnaround_fetches : (after (.turnaround 0) (atByte .turnaround 0)).hp.out = 0x3B#8 := by decide +kernel

/-- R9: past 0xFF the transaction stops. -/
theorem test_read_past_end : (after (.readData 0) (atByte .readData 0xFF#8)).hp.phase = .ignore := by decide +kernel

/-- R21: a write of a read-only register is captured with cause 0x14. -/
theorem test_refusal_capture :
    (after (.registerWrite .host 0x24#8 0) (hostAt 0x24#8)).rc = { addr := 0x24, cause := 0x14, count := 1 } := by decide +kernel

/-- R53: a reclaim of a locked group is refused. -/
theorem test_reclaim_locked :
    (after (.reclaim 0#8) { hostAt 0x06#8 with own := { owner := 1, rlock := 1, restartPending := false } }).own.owner = 1#6 := by
  decide +kernel

/-- R54: the head may not seize in the hosted arrangement. -/
theorem test_seize_hosted : (after (.seize 1#8) (onLink .joined)).own.owner = 0#6 := by decide +kernel

/-- R186: a request for SLEEP settles first. -/
theorem test_request_sleep : (after (.requestSleep .host) (hostAt 0x03#8)).pr.state = .settling := by decide +kernel

/-- R187: with the line quiet and CSN high the settling part sleeps at the next tick. -/
theorem test_settling_sleeps : (after (.msTick 0) (inPower .settling State.reset)).pr.state = .sleep := by decide +kernel

/-- R157: a commit joins the three staged bytes with the committing one. -/
theorem test_commit :
    (after (.localtimeCommit .host 4#8) { hostAt 0x0F#8 with host.time := #v[1, 2, 3, 0] }).st.localTime = 0x01020304#32 := by
  decide +kernel

/-- R22: clearing REFUSED clears REFCOUNT and keeps REFADDR. -/
theorem test_refused_clear :
    let s := { hostAt 0x10#8 with ia.flags0 := 0x81, rc := { addr := 9, cause := 0x14, count := 3 } }
    ((after (.refusedClear 0#8) s).rc, (after (.refusedClear 0#8) s).ia.flags0) =
      ({ addr := 9, cause := 0x14, count := 0 }, 0x80#8) := by decide +kernel

/-- R96: ARM loads the refresh with period × 10. -/
theorem test_arm_periodic :
    let s := hostAt 0x6A#8
    ((after (.arm .host) { s with
      ob.boxes := s.ob.boxes.set 0 { s.ob.boxes[0] with mail.period := 3 } }).ob.boxes[0]).remaining = 30 := by decide +kernel

/-- R168: PULSE with LDELAY 0 is lit at once for LWIDTH × 10 ticks. -/
theorem test_pulse : ((after (.lgoPulse .host) (hostAt 0xBA#8)).lm.lamps[0]).remaining = 500 := by decide +kernel

/-- R167: EITHER admits both sources; REMOTE refuses the host. -/
theorem test_lgo_excluded :
    let s := hostAt 0xBA#8
    ((after (.lgoOn .host) { s with
      lm.lamps := s.lm.lamps.set 0 { s.lm.lamps[0] with ctrl := .remoteOnly } }).lm.lamps[0]).phase = .off := by decide +kernel

/-! ### Witnesses: for each statement, states and operands that meet the hypotheses of each clause -/

theorem witness_StepRunsFrontCommand :
    ({ State.reset with pending := [.write, .csnRise] }).pending = [.write, .csnRise] ∧ State.reset.pending = [] :=
  ⟨rfl, rfl⟩

theorem witness_HeldPart :
    (after .resetHeldLow State.reset).held = true ∧ (after .resetHeldLow State.reset).pins.resetnLow = true ∧
      (after .supplyBelowRange State.reset).held = true ∧ (after .supplyBelowRange State.reset).pins.supplyLow = true := by
  decide

theorem witness_Resets :
    (after .supplyBelowRange State.reset).pins.resetnLow = false ∧ (after .resetHeldLow State.reset).pins.supplyLow = false ∧
      ((hostAt 0x05#8).byteReady .writeData ∧ (hostAt 0x05#8).hp.pointer = 0x05#8 ∧ (hostAt 0x05#8).owns .host .sys) ∧
      (let s : State := { State.reset with own.restartPending := true }
      s.held = false ∧ s.own.restartPending = true ∧ s.link.tx = .idle ∧ (∃ t, exec .remoteRestart s = .next t) ∧
        ofReset (.poll true 3) = false) ∧
      (let s : State := { onLink .joined with own.restartPending := true, link.tx := .transmitting [0x42#8] }
      s.held = false ∧ s.own.restartPending = true ∧ s.Ready ∧ ∃ r, s.link.tx = .transmitting r) :=
  ⟨by decide, by decide, ⟨atByte_ready _ _, rfl, rfl⟩, ⟨rfl, rfl, rfl, ⟨_, rfl⟩, rfl⟩,
    rfl, rfl, ready_rfl rfl rfl rfl rfl, _, rfl⟩

theorem witness_Tick :
    (State.reset.Ready ∧ State.reset.awake = true ∧ State.reset.watchdogExpires = false ∧
      State.reset.quietExpires = false) ∧
      (∀ p ∈ [LampPhase.off, .on, .followLit, .followDark, .blinkLit, .blinkDark, .pulseWait, .pulseLit],
        let l : Lamp := { State.reset.lm.lamps[11] with phase := p, remaining := 2 }
        let s : State := { State.reset with lm.lamps := State.reset.lm.lamps.set 11 l }
        s.Ready ∧ s.awake = true ∧ s.watchdogExpires = false ∧ s.quietExpires = false ∧
          s.lm.lamps[(11 : Fin 12)].phase = p ∧ 2 ≤ s.lm.lamps[(11 : Fin 12)].remaining) ∧
      (let b : Mailbox := { Mailbox.powerOn with running := true, remaining := 2 }
      let s : State := { State.reset with ob.boxes := State.reset.ob.boxes.set 5 b }
      s.Ready ∧ s.ob.boxes[(5 : Fin 6)].running = true ∧ 2 ≤ s.ob.boxes[(5 : Fin 6)].remaining ∧
        s.ob.boxes[(0 : Fin 6)].running = false) ∧
      ((∀ p ∈ [PowerState.run, .doze, .settling, .sleep], ∀ en : Bool,
        let s : State := { inPower p State.reset with ks := { State.reset.ks with en := en, sleepWake := en } }
        s.Ready ∧ s.pr.state = p ∧ s.ks.en = en ∧ s.ks.sleepWake = en) ∧
        -- counter + 1 just below DEBOUNCE and at it, and an input that is not primed
        (∀ c ∈ [0, 1], (withInput 2 c State.reset).Ready ∧
          (withInput 2 c State.reset).st.inputs[(3 : Fin 4)].primed = true ∧
            (8#4).getLsbD 3 ≠ (withInput 2 c State.reset).st.inputs[(3 : Fin 4)].level) ∧
        (0#4).getLsbD 3 = (withInput 2 1 State.reset).st.inputs[(3 : Fin 4)].level ∧
        State.reset.st.inputs[(3 : Fin 4)].en = false) ∧
      ((inPower .waking State.reset).Ready ∧ (inPower .waking State.reset).pr.state = .waking) ∧
      ((inPower .sleep State.reset).Ready ∧ (inPower .sleep State.reset).pr.state = .sleep ∧
        ∀ n : Fin 4, (inPower .sleep State.reset).st.inputs[n].asksWake ((8#4).getLsbD n.val) = false) ∧
      (let s := inPower .sleep (withInput 2 0 State.reset)
      s.Ready ∧ s.pr.state = .sleep ∧ s.st.inputs[(3 : Fin 4)].asksWake ((8#4).getLsbD (3 : Fin 4).val) = true ∧
        ∀ k : Fin 4, k < 3 → s.st.inputs[k].asksWake ((8#4).getLsbD k.val) = false) := by
  simp -zeta only [ready_iff]
  decide +kernel

/-- A scan that is due asks nothing of the rows about scans, and no other step is due in `State.reset`. -/
theorem witness_SubRowsAreTheirTickOrScan :
    (State.reset.restartWaits = false ∧ State.reset.oscillatorDue = false ∧ State.reset.scanWaits = false) ∧
      scanning.restartWaits = false ∧ scanning.oscillatorDue = false := by
  decide

/-- At DEBOUNCE 1 and at DEBOUNCE 15. -/
theorem witness_SenseFlip :
    ∀ x ∈ [((1#4, 0) : BitVec 4 × Nat), (15#4, 14)],
      let s := withInput x.1 x.2 State.reset
      s.Ready ∧ s.awake = true ∧ s.st.inputs[(3 : Fin 4)].en = true ∧ s.st.inputs[(3 : Fin 4)].primed = true ∧
        (8#4).getLsbD (3 : Fin 4).val ≠ s.st.inputs[(3 : Fin 4)].level ∧
        s.st.inputs[(3 : Fin 4)].debounce.toNat ≤ s.st.inputs[(3 : Fin 4)].counter + 1 := by
  simp -zeta only [ready_iff]
  decide +kernel

/-- At SILENCE 1 and at SILENCE 255. -/
theorem witness_WatchdogExpiry :
    ∀ x ∈ [((LinkState.joined, 1#8, 19) : LinkState × Byte × Nat), (.hushed, 255#8, 5099)],
      let s : State := { onLink x.1 with link.silence := x.2.1, link.watchdog := x.2.2 }
      s.Ready ∧ s.awake = true ∧ (s.link.state = .joined ∨ s.link.state = .hushed) ∧ s.link.silence ≠ 0#8 ∧
        s.link.silence.toNat * 20 ≤ s.link.watchdog + 1 := by
  simp -zeta only [ready_iff]
  decide +kernel

theorem witness_RefreshElapse :
    ∀ x ∈ [((MbState.empty, 0#16) : MbState × Half), (.ready, 1#16), (.offered, 65535#16)],
      let b : Mailbox := { Mailbox.powerOn with mail.period := x.2, state := x.1, running := true, remaining := 1 }
      let s : State := { State.reset with ob.boxes := State.reset.ob.boxes.set 5 b }
      s.Ready ∧ s.awake = true ∧ s.watchdogExpires = false ∧ s.ob.boxes[(5 : Fin 6)].running = true ∧
        s.ob.boxes[(5 : Fin 6)].remaining ≤ 1 ∧ s.ob.boxes[(5 : Fin 6)].state = x.1 ∧
        s.ob.boxes[(5 : Fin 6)].mail.period = x.2 := by
  simp -zeta only [ready_iff]
  decide +kernel

theorem witness_PhaseEnd :
    ∀ p ∈ [LampPhase.blinkLit, .blinkDark, .pulseWait, .pulseLit],
      let s := withLamp 11 p State.reset
      s.Ready ∧ s.awake = true ∧ s.lm.lamps[(11 : Fin 12)].phase.timed = true ∧
        s.lm.lamps[(11 : Fin 12)].remaining ≤ 1 := by
  simp -zeta only [ready_iff]
  decide +kernel

/-- A scan that is due, and commands that come after it. -/
theorem witness_ScanCompletion :
    (scanning.ScanReady ∧ scanning.awake = true ∧ scanning.pr.state ≠ .waking) ∧
      (∃ t, exec (.scanCompletion scanning.pins.switches) scanning = .next t) ∧
      ∀ c ∈ [Instr.msTick 0, .csnFall, .poll true 3], ofReset c = false ∧ ofScan c = false ∧ c ≠ .oscillatorReady := by
  simp -zeta only [scanReady_iff]
  exact ⟨by decide, ⟨_, rfl⟩, by decide⟩

theorem witness_DebouncedRelease :
    ∀ st ∈ [KeyState.down, .long, .blocked, .suspect],
      let s := withKey 47 st scanning
      s.ScanReady ∧ s.awake = true ∧ s.ks.used 47 = true ∧
        (0#48).getLsbD (47 : Fin 48).val = false ∧ s.ks.keys[(47 : Fin 48)].state ≠ .up ∧
        s.ks.debounce.toNat ≤ s.ks.keys[(47 : Fin 48)].deb + 1 := by
  simp -zeta only [scanReady_iff]
  decide +kernel

/-- With MATRIX 0x75 key 7 completes a rectangle with keys 0, 1 and 6, and key 47 is the fifth of keys 0, 7, 14 and 21. With
DEBOUNCE 2 key 47 stays UP at its first pressed reading. -/
theorem witness_PressesAndWaitingKeys :
    let corners := withKey 0 .down (withKey 1 .down (withKey 6 .down scanning))
    let four := withKey 0 .down (withKey 7 .down (withKey 14 .long (withKey 21 .long scanning)))
    let keys (k : Fin 48) : BitVec 48 := 1#48 <<< k.val ||| 0x204083#48 ||| 1#48 <<< 6
    (∀ x ∈ [((corners, 7) : State × Fin 48), (scanning, 47), (four, 47)],
      x.1.ScanReady ∧ x.1.awake = true ∧ x.1.ks.used x.2 = true ∧
        (keys x.2).getLsbD x.2.val = true ∧ x.1.ks.keys[x.2].state = .up ∧
        x.1.ks.debounce.toNat ≤ x.1.ks.keys[x.2].deb + 1) ∧
      ((corners.ks.reachingPress (keys 7) 7).completesRectangle 7 = true) ∧
      (∀ x ∈ [((withKey 7 .suspect corners, 7) : State × Fin 48), (withKey 47 .blocked scanning, 47),
          (withKey 47 .blocked four, 47)],
        (x.1.ks.keys[x.2].state = .suspect ∨ x.1.ks.keys[x.2].state = .blocked) ∧ x.1.ks.flips (keys x.2) x.2 = false) ∧
      ((withKey 7 .suspect corners).ks.reachingReview (keys 7) 7).completesRectangle 7 = true ∧
      ((withKey 47 .blocked four).ks.reachingReview (keys 47) 47).countedKeys = 4 ∧
      (let s : State := { scanning with ks.debounce := 2 }
      s.ScanReady ∧ s.awake = true ∧ s.ks.keys[(47 : Fin 48)].state = .up ∧ s.ks.used 47 = true ∧
        (keys 47).getLsbD (47 : Fin 48).val = true ∧ s.ks.keys[(47 : Fin 48)].deb + 1 < s.ks.debounce.toNat) := by
  simp -zeta only [scanReady_iff]
  decide +kernel

theorem witness_KeyLongAndRepeat :
    let long : State := { withKey 0 .long scanning with ks := { (withKey 0 .long scanning).ks with rept := 1, clock := 20 } }
    let down : State :=
      { withKey 0 .down scanning with ks := { (withKey 0 .down scanning).ks with longTime := 1, clock := 20 } }
    (down.ScanReady ∧ down.awake = true ∧ down.ks.flips 1#48 0 = false ∧
      down.ks.keys[(0 : Fin 48)].state = .down ∧ down.ks.longTime ≠ 0#8 ∧
      down.ks.longTime.toNat * 20 ≤ min 65535 (down.ks.keys[(0 : Fin 48)].hold + down.ks.clock)) ∧
      long.ScanReady ∧ long.ks.flips 1#48 0 = false ∧ long.ks.keys[(0 : Fin 48)].state = .long ∧ long.ks.rept ≠ 0#8 ∧
      long.ks.rept.toNat * 20 ≤ min 65535 (long.ks.keys[(0 : Fin 48)].rept + long.ks.clock) ∧
      -- one ms before each time is reached, and with LONGTIME and REPEAT 0
      (let early : State := { down with ks.clock := 19 }
      early.ks.keys[(0 : Fin 48)].hold + early.ks.clock < early.ks.longTime.toNat * 20) ∧
      (let early : State := { long with ks.clock := 19 }
      early.ks.keys[(0 : Fin 48)].rept + early.ks.clock < early.ks.rept.toNat * 20) ∧
      ({ down with ks.longTime := 0 } : State).ks.longTime = 0#8 ∧ ({ long with ks.rept := 0 } : State).ks.rept = 0#8 := by
  simp -zeta only [scanReady_iff]
  decide +kernel

/-- A plain ROLLCALL, a POLL, and a BEACON with flags byte `flags`. -/
def rollcallTo (dest : BitVec 5) : Frame := { dest := dest, src := 0, kind := .rollcall, av := false, tn := 0, body := [] }
def pollTo (dest : BitVec 5) : Frame := { dest := dest, src := 0, kind := .poll, av := false, tn := 0, body := [] }
def beaconOf (flags : Byte) : Frame :=
  { dest := 31, src := 0, kind := .beacon, av := false, tn := 0, body := [flags, 1, 2, 3, 4] }

theorem inPower_ready (p : PowerState) (st : LinkState) (h : st ≠ .off) : (inPower p (onLink st)).frameReady := by
  cases st with
  | off => exact absurd rfl h
  | listen | joined | hushed | clashed => exact ⟨ready_rfl rfl rfl (by cases p <;> rfl) rfl, rfl, rfl⟩

/-- A key, a frame of each link state, frames that wake (a plain ROLLCALL, a BEACON with WAKE) and frames that do not. -/
theorem witness_WakeRequests :
    (let s := inPower .sleep scanning
    s.ScanReady ∧ s.pr.state = .sleep ∧ s.ks.used 47 = true ∧
      (1#48 <<< 47).getLsbD (47 : Fin 48).val = true ∧
      (∀ j : Fin 48, j < 47 → s.ks.used j = true → (1#48 <<< 47).getLsbD j.val = false) ∧
      ∀ k : Fin 48, s.ks.used k = true → (0#48).getLsbD k.val = false) ∧
      (∀ st, st ≠ LinkState.off →
        (inPower .sleep (onLink st)).frameReady ∧ (inPower .sleep (onLink st)).pr.state = .sleep ∧
          (inPower .sleep (onLink st)).addressed ∧ (inPower .sleep (onLink st)).link.state = st) ∧
      (∀ f ∈ [rollcallTo 5, beaconOf 2#8, beaconOf 0#8, pollTo 5],
        classify 5#5 ((onLine f.bytes).foldl Receiver.receive Receiver.start) = .valid f) ∧
      ((rollcallTo 5).kind = .rollcall ∧ (rollcallTo 5).body = [] ∧ (byteAt (beaconOf 2#8).body 0).getLsbD 1 = true ∧
        (byteAt (beaconOf 0#8).body 0).getLsbD 1 = false) ∧
      (inPower .waking (onLink .listen)).frameReady ∧ (inPower .waking (onLink .listen)).pr.state = .waking :=
  ⟨by simp -zeta only [scanReady_iff]; decide +kernel, fun st h => ⟨inPower_ready _ st h, rfl, onLink_addressed st, rfl⟩,
    by decide +kernel, by decide, inPower_ready _ _ (by decide), rfl⟩

theorem witness_SleepEntry :
    State.reset.Ready ∧
      ¬(State.reset.pr.state = .settling ∧ State.reset.link.rx.cond ≠ .receiving ∧ State.reset.link.tx = .idle ∧
        State.reset.pins.csnLow = false) ∧
      ∀ en : Bool,
        let s : State := { inPower .settling State.reset with ks.en := en }
        s.pr.state = .settling ∧ s.link.rx.cond ≠ .receiving ∧ s.link.tx = .idle ∧ s.pins.csnLow = false ∧ s.ks.en = en := by
  simp -zeta only [ready_iff]
  decide

theorem witness_OscillatorReady :
    let s : State := { inPower .waking State.reset with pr.request := some (.sense, 3), pr.wakeTicks := 2 }
    s.held = false ∧ s.restartWaits = false ∧ s.pr.state = .waking ∧ 2 ≤ s.pr.wakeTicks ∧
      s.pr.request = some (.sense, 3#8) ∧ (∃ t, exec .oscillatorReady s = .next t) ∧
      ∀ c ∈ [Instr.msTick 0, .sleepEntry, .status], ofReset c = false :=
  ⟨by decide, by decide, by decide, by decide, by decide, ⟨_, rfl⟩, by decide⟩

/-- `onLink .joined`, with a transmitter and a receiver in these conditions. -/
def onLine (tx : Transmitter) (cond : RxCond) : State :=
  { onLink .joined with link := { (onLink .joined).link with tx := tx, rx := { Receiver.awaiting with cond := cond } } }

theorem witness_ReceiverConditions :
    ∀ tx ∈ [Transmitter.idle, .pending [1#8]], ∀ cond ∈ [RxCond.hunting, .awaitingIdle],
      (onLine tx cond).Ready ∧ (onLine tx cond).linkOn = true ∧
        (onLine tx cond).link.tx.isTransmitting = false ∧ (onLine tx cond).link.rx.cond = cond ∧
        (onLine tx cond).link.tx = tx := by
  simp -zeta only [ready_iff]
  decide

theorem witness_ReplyTransmission :
    ∀ tx ∈ [Transmitter.pending [1#8], .transmitting [1#8]], ∀ b : Bool,
      let s : State := { onLine tx .awaitingIdle with own.restartPending := b }
      s.Ready ∧ s.link.tx = tx ∧ s.own.restartPending = b := by
  simp -zeta only [ready_iff]
  decide

/-- Valid frames at the ends of R28's ranges; frames that break its direction or its body rule; misdirected frames; and the
levels of a byte on the line. -/
theorem witness_FrameRoundTrip :
    (∀ f ∈ [({ dest := 5, src := 0, kind := .poll, av := true, tn := 7, body := [] } : Frame),
        { dest := 31, src := 0, kind := .deliver, av := false, tn := 0, body := List.replicate 17 0xFF#8 },
        { dest := 0, src := 30, kind := .regval, av := false, tn := 0, body := List.replicate 48 0xFF#8 }],
      f.body.length ≤ 48 ∧ f.directionRule ∧ f.bodyRule ∧ ¬f.misdirectedAt 5#5) ∧
      (∀ f ∈ [({ dest := 5, src := 1, kind := .poll, av := true, tn := 7, body := [] } : Frame),
          { dest := 0, src := 31, kind := .regval, av := false, tn := 0, body := [] },
          { dest := 5, src := 0, kind := .deliver, av := false, tn := 0, body := List.replicate 18 0 }],
        f.body.length ≤ 48 ∧ ¬(f.directionRule ∧ f.bodyRule)) ∧
      (∀ f ∈ [({ dest := 0, src := 0, kind := .poll, av := true, tn := 7, body := [] } : Frame),
          { dest := 31, src := 0, kind := .peek, av := false, tn := 0, body := [0, 1] },
          { dest := 6, src := 0, kind := .hush, av := false, tn := 0, body := [0, 1] }],
        f.body.length ≤ 48 ∧ f.directionRule ∧ f.bodyRule ∧ f.misdirectedAt 5#5) ∧
      ∃ level : Nat → Bool, (∀ n : Fin 8, level (n.val + 1) = (0x81#8).getLsbD n.val) ∧ level 9 = true :=
  ⟨by decide, by decide, by decide, fun n => (byteLevels 0x81#8).getD n true, by decide⟩

theorem witness_FrameCompletion : (onLink .listen).frameReady ∧ (onLink .listen).awake = true :=
  ⟨onLink_ready _ (by decide), rfl⟩

theorem witness_IgnoredFrames :
    (∀ st ∈ [LinkState.listen, .hushed, .clashed],
      (onLink st).frameReady ∧ (onLink st).awake = true ∧ (onLink st).addressed ∧ (onLink st).link.state ≠ .joined ∧
        (onLink st).link.state = st) ∧
      (List.replicate 16 0#8).length ≤ 16 ∧ 1 ≤ [0#8].length ∧ [0#8].length ≤ 16 ∧ 1 ≤ (List.replicate 16 0#8).length :=
  ⟨fun st h => ⟨onLink_ready st (by rintro rfl; simp at h), rfl, onLink_addressed st, by
    show st ≠ .joined; rintro rfl; simp at h, rfl⟩, by decide⟩

theorem witness_Rollcalls :
    (∀ st, st ≠ LinkState.off → (onLink st).frameReady ∧ (onLink st).awake = true ∧ (onLink st).addressed ∧
      (onLink st).link.state = st ∧ (onLink st).serial = 0#48) ∧
      (30#8).toNat ≤ 30 ∧ (0#8).toNat ≤ 30 ∧ (1#48 ≠ 0#48) ∧ (30#8 ≠ 0#8) :=
  ⟨fun st h => ⟨onLink_ready st h, rfl, onLink_addressed st, rfl, rfl⟩, by decide⟩

theorem witness_HushAndQuietPeriod :
    ((onLink .joined).frameReady ∧ (onLink .joined).awake = true ∧ (onLink .joined).addressed ∧
      (onLink .joined).link.state = .joined) ∧
      ((onLink .hushed).frameReady ∧ (onLink .hushed).awake = true ∧ (onLink .hushed).link.state = .hushed) ∧
      ∀ ms ∈ [0, 1],
        let s : State := { onLink .hushed with link.quiet := .left ms }
        s.Ready ∧ s.awake = true ∧ s.link.state = .hushed ∧ s.link.quiet = .left ms ∧ ms ≤ 1 ∧
          s.watchdogExpires = false :=
  ⟨⟨onLink_ready _ (by decide), rfl, onLink_addressed _, rfl⟩, ⟨onLink_ready _ (by decide), rfl, rfl⟩,
    by simp -zeta only [ready_iff]; decide⟩

theorem witness_Beacon :
    (onLink .clashed).frameReady ∧ (onLink .clashed).awake = true ∧ (0xFF#8).getLsbD 0 = true ∧
      (0xFE#8).getLsbD 0 = false :=
  ⟨onLink_ready _ (by decide), rfl, by decide, by decide⟩

theorem witness_Clash :
    (∀ st, st ≠ LinkState.off → (onLink st).frameReady ∧ (onLink st).awake = true ∧ (onLink st).addressed ∧
      (onLink st).link.state = st) ∧
      9 ≤ (0x9#4).toNat ∧ (0x9#4).toNat ≤ 13 ∧ 9 ≤ (0xD#4).toNat ∧ (0xD#4).toNat ≤ 13 ∧
      (List.replicate 48 0#8).length ≤ 48 :=
  ⟨fun st h => ⟨onLink_ready st h, rfl, onLink_addressed st, rfl⟩, by decide⟩

theorem witness_PollReply :
    ((onLink .joined).frameReady ∧ (onLink .joined).awake = true ∧ (onLink .joined).addressed ∧
      (onLink .joined).link.state = .joined) ∧
      ((withBox 5 .ready (onLink .joined)).heard.pollStages false 0).ob.inFlight =
        some { item := .mailbox 5, turn := 0, resends := 0 } ∧
      (({ onLink .joined with jr.list := [record] } : State).heard.pollStages true 0).ob.inFlight =
        some { item := .batch, turn := 0, resends := 0 } ∧
      ((onLink .joined).heard.pollStages true 0).ob.inFlight = none :=
  ⟨⟨onLink_ready _ (by decide), rfl, onLink_addressed _, rfl⟩, by decide +kernel⟩

/-- What a frame asks of the states of the POLL, DELIVER, PEEK and POKE statements. -/
theorem joined_serves (s : State) (hp : s.pins = (onLink .joined).pins) (hl : s.link = (onLink .joined).link)
    (hw : s.pr = (onLink .joined).pr) (ho : s.own.restartPending = false) (hd : s.ks.due = false) :
    s.frameReady ∧ s.awake = true ∧ s.addressed ∧ s.link.state = .joined := by
  refine ⟨⟨ready_rfl ?_ ?_ ?_ ?_, ?_, ?_⟩, ?_, ⟨?_, ?_⟩, ?_⟩
  · unfold State.held; rw [hp]; rfl
  · unfold State.restartWaits; rw [ho]; rfl
  · unfold State.oscillatorDue; rw [hw]; rfl
  · unfold State.scanWaits; rw [hd]; rfl
  · unfold State.listening State.linkOn; rw [hl]; rfl
  · rw [hl]; rfl
  · unfold State.awake; rw [hw]; rfl
  · rw [hl]; decide
  · rw [hl]; decide
  · rw [hl]; rfl

theorem witness_PollAcknowledges :
    (let s := withOffer 0 (onLink .joined)
    s.frameReady ∧ s.awake = true ∧ s.addressed ∧ s.link.state = .joined ∧
      s.ob.inFlight = some { item := .mailbox 5, turn := 7, resends := 0 }) ∧
      (let s := withBatch [{ record with pinned := true }] (onLink .joined)
      s.frameReady ∧ s.awake = true ∧ s.addressed ∧ s.link.state = .joined ∧
        s.ob.inFlight = some { item := .batch, turn := 6, resends := 6 }) :=
  ⟨by obtain ⟨a, b, c, d⟩ := joined_serves (withOffer 0 (onLink .joined)) rfl rfl rfl rfl rfl; exact ⟨a, b, c, d, rfl⟩,
    by obtain ⟨a, b, c, d⟩ := joined_serves (withBatch [{ record with pinned := true }] (onLink .joined)) rfl rfl rfl rfl rfl
       exact ⟨a, b, c, d, rfl⟩⟩

/-- Resend count 5 and 6 against RESEND 6, RESEND 0, a pending cancel, and a batch at its limit. -/
theorem witness_PollUnacknowledged :
    (∀ r ∈ [5, 6],
      let s := withOffer r (onLink .joined)
      s.frameReady ∧ s.awake = true ∧ s.addressed ∧ s.link.state = .joined ∧
        s.ob.inFlight = some { item := .mailbox 5, turn := 7, resends := r } ∧
        s.ob.boxes[(5 : Fin 6)].cancelPending = false ∧ s.ob.resend = 6#8) ∧
      ({ withOffer 15 (onLink .joined) with ob.resend := 0 } : State).ob.resend = 0#8 ∧
      (let s := withOffer 6 (onLink .joined)
      let t : State := { s with ob.boxes := s.ob.boxes.set 5 { s.ob.boxes[5] with cancelPending := true } }
      t.ob.boxes[(5 : Fin 6)].cancelPending = true ∧ t.ob.inFlight = some { item := .mailbox 5, turn := 7, resends := 6 }) ∧
      (let s := withBatch [{ record with pinned := true }] (onLink .joined)
      s.ob.inFlight = some { item := .batch, turn := 6, resends := 6 } ∧ s.ob.resend ≠ 0#8 ∧ s.ob.resend.toNat ≤ 6) ∧
      6#3 ≠ 7#3 :=
  ⟨fun r _ => by
    obtain ⟨a, b, c, d⟩ := joined_serves (withOffer r (onLink .joined)) rfl rfl rfl rfl rfl
    exact ⟨a, b, c, d, rfl, rfl, rfl⟩, by decide +kernel⟩

theorem witness_PollSelects :
    let base : State := { onLink .joined with jr.list := [record], ob.jrank := 3, ob.patience := 4 }
    (base.frameReady ∧ base.awake = true ∧ base.addressed ∧ base.link.state = .joined ∧ base.ob.inFlight = none) ∧
      -- the journal, by patience
      (let s : State := { withBox 0 .ready base with ob.passed := 4 }
      s.ob.patience ≠ 0#8 ∧ s.ob.patience.toNat ≤ s.ob.passed ∧ ∃ r ∈ s.jr.list, r.wantRemote = true ∧ r.pinned = false) ∧
      -- the journal, by rank: mailbox 3 is not below JRANK 3
      (let s := withBox 3 .ready base
      ∀ j : Fin 6, j.val < s.ob.jrank.toNat → s.ob.boxes[j].state ≠ .ready) ∧
      -- mailbox 2 below JRANK 3 with a journal waiting, and mailbox 5 without one
      (let s := withBox 2 .ready base
      ¬(s.ob.patience ≠ 0#8 ∧ s.ob.patience.toNat ≤ s.ob.passed) ∧ s.ob.boxes[(2 : Fin 6)].state = .ready ∧
        (∀ j : Fin 6, j < 2 → s.ob.boxes[j].state ≠ .ready) ∧ (2 : Fin 6).val < s.ob.jrank.toNat) ∧
      (let s : State := { withBox 5 .ready base with jr.list := [] }
      s.ob.boxes[(5 : Fin 6)].state = .ready ∧ (∀ j : Fin 6, j < 5 → s.ob.boxes[j].state ≠ .ready) ∧
        ¬∃ r ∈ s.jr.list, r.wantRemote = true ∧ r.pinned = false) ∧
      -- nothing
      (∀ j : Fin 6, base.ob.boxes[j].state ≠ .ready) ∧ ∀ r ∈ base.jr.list, r.pinned = false := by
  refine ⟨?_, by decide +kernel⟩
  obtain ⟨a, b, c, d⟩ :=
    joined_serves { onLink .joined with jr.list := [record], ob.jrank := 3, ob.patience := 4 } rfl rfl rfl rfl rfl
  exact ⟨a, b, c, d, rfl⟩

/-- Routed to nobody, to the host alone and to both; with room, at 63 and at 64 records; under both policies; with a pinned, a
local-only and a remote-only oldest record. -/
theorem witness_JournalTakesEvent :
    let routed (r : BitVec 6) (l : List JRecord) (p : Byte) : State :=
      { onLink .joined with jr := { (onLink .joined).jr with route := r, list := l, policy := p } }
    ((routed 0 [] 0).jr.routing .keys).getLsbD 0 = false ∧ ((routed 0 [] 0).jr.routing .keys).getLsbD 1 = false ∧
      ((routed 1 [] 0).jr.routing .keys).getLsbD 0 = true ∧
      (((routed 3 [] 0).jr.routing .keys).getLsbD 1 && (routed 3 [] 0).linkOn) = true ∧
      (routed 3 (List.replicate 63 record) 0).jr.list.length < 64 ∧
      (∃ x ∈ (routed 3 (List.replicate 63 record) 0).jr.list, x.wantLocal = true) ∧
      (∀ x ∈ (routed 3 [] 0).jr.list, x.wantLocal = false) ∧
      64 ≤ (routed 3 (List.replicate 64 record) 0).jr.list.length ∧ (routed 3 (List.replicate 64 record) 0).jr.policy ≠ 1#8 ∧
      (routed 3 (List.replicate 64 record) 1).jr.policy = 1#8 ∧
      (∀ o ∈ [{ record with pinned := true }, { record with wantRemote := false }, { record with wantLocal := false }],
        (routed 3 (o :: List.replicate 63 record) 1).jr.list = o :: List.replicate 63 record ∧
          64 ≤ (routed 3 (o :: List.replicate 63 record) 1).jr.list.length) := by
  decide +kernel

/-- `s` with filter entry `i` set. -/
def withFilter (i : Fin 8) (f : Filter) (s : State) : State := { s with ib.filters := s.ib.filters.set i f }

theorem witness_FilterDecides :
    let f : Filter := { en := true, action := .both, notify := true, chan := 0x2A, mask := 0x3E#6 }
    let ib := (withFilter 7 f State.reset).ib
    (ib.filters[(7 : Fin 8)].en = true ∧
      (∀ b : Fin 6, ib.filters[(7 : Fin 8)].mask.getLsbD b.val = true →
        (0x2B#8).getLsbD b.val = ib.filters[(7 : Fin 8)].chan.getLsbD b.val) ∧
      ∀ j : Fin 8, j < 7 → ib.filters[j].en = false) ∧
      ∀ j : Fin 8, State.reset.ib.filters[j].en = false := by
  decide +kernel

/-- An inbound queue of `n` records. -/
def queued (n : Nat) (s : State) : State :=
  { s with ib.queue := List.replicate n { tag := 0, chan := 0, payload := [], filt := 8, broadcast := false, stamp := 0 } }

theorem witness_Deliver :
    (∀ n, (queued n (onLink .joined)).frameReady ∧ (queued n (onLink .joined)).awake = true ∧
      (queued n (onLink .joined)).addressed ∧ (queued n (onLink .joined)).link.state = .joined) ∧
      (let s := onLink .joined
      s.ib.lastTurn = 7#3 ∧ 0#3 = s.ib.lastTurn + 1 ∧ (1#3 ≠ s.ib.lastTurn ∧ 1#3 ≠ s.ib.lastTurn + 1)) ∧
      64 ≤ (64#8).toNat ∧ (63#8).toNat ≤ 63 ∧ (List.replicate 16 0#8).length ≤ 16 ∧
      (((onLink .joined).ib.judge 63#8).action = .queue ∧ 12 ≤ (queued 12 (onLink .joined)).ib.queue.length ∧
        (queued 11 (onLink .joined)).ib.queue.length < 12) ∧
      ((withFilter 0 { Filter.powerOn with en := true, action := .lamp, notify := true, mask := 0 }
        (onLink .joined)).ib.judge 63#8) = { action := .lamp, filt := 0, notify := some 0 } :=
  ⟨fun n => joined_serves _ rfl rfl rfl rfl rfl, by decide +kernel⟩

theorem witness_BroadcastDeliver :
    ((onLink .joined).frameReady ∧ (onLink .joined).awake = true ∧ (onLink .joined).link.state = .joined) ∧
      ((onLink .hushed).frameReady ∧ (onLink .hushed).awake = true ∧ (onLink .hushed).link.state = .hushed) ∧
      64 ≤ (64#8).toNat ∧ (63#8).toNat ≤ 63 ∧ (List.replicate 16 0#8).length ≤ 16 ∧
      ((onLink .hushed).ib.judge 63#8).action = .queue ∧ 12 ≤ (queued 12 (onLink .hushed)).ib.queue.length ∧
      (queued 11 (onLink .hushed)).ib.queue.length < 12 ∧
      ((withFilter 0 { Filter.powerOn with en := true, action := .both, notify := true, mask := 0 }
        (onLink .hushed)).ib.judge 63#8) = { action := .both, filt := 0, notify := some 0 } :=
  ⟨⟨onLink_ready _ (by decide), rfl, rfl⟩, ⟨onLink_ready _ (by decide), rfl, rfl⟩, by decide +kernel⟩

/-- Ops 4 and 5, targets 11, 12, 14 and 15, levels 15 and 16; a LOCAL lamp, a pulsing lamp and a lamp that obeys. -/
theorem witness_LampPayload :
    (4 < ((0x50#8).extractLsb' 4 4).toNat) ∧ (12 ≤ ((0x0C#8).extractLsb' 0 4).toNat ∧ ((0x0E#8).extractLsb' 0 4).toNat ≤ 14) ∧
      16 ≤ (16#8).toNat ∧
      (∀ x ∈ [((0x00#8, 0) : Byte × Nat), (0x1B#8, 1), (0x2F#8, 2), (0x30#8, 3), (0x4B#8, 4)], (x.1.extractLsb' 4 4).toNat = x.2) ∧
      (15#8).toNat ≤ 15 ∧
      ((0x4B#8).extractLsb' 0 4).toNat = (11 : Fin 12).val ∧ ((0x4F#8).extractLsb' 0 4).toNat = 15 ∧
      ({ State.reset.lm.lamps[(0 : Fin 12)] with ctrl := .localOnly } : Lamp).ctrl = .localOnly ∧
      (withLamp 0 .pulseWait State.reset).lm.lamps[(0 : Fin 12)].phase = .pulseWait ∧
      (State.reset.lm.lamps[(0 : Fin 12)].ctrl ≠ .localOnly ∧ State.reset.lm.lamps[(0 : Fin 12)].phase ≠ .pulseWait ∧
        State.reset.lm.lamps[(0 : Fin 12)].phase ≠ .pulseLit) := by
  decide +kernel

theorem witness_Peek :
    ((onLink .joined).frameReady ∧ (onLink .joined).awake = true ∧ (onLink .joined).addressed ∧
      (onLink .joined).link.state = .joined) ∧
      (0#8 = 0#8 ∧ 16 < (17#8).toNat ∧ 0xFF < (0xF1#8).toNat + (16#8).toNat - 1) ∧
      ∀ x ∈ [((0#8, 1#8) : Byte × Byte), (0xF0#8, 16#8), (0xFF#8, 1#8)],
        1 ≤ x.2.toNat ∧ x.2.toNat ≤ 16 ∧ x.1.toNat + x.2.toNat - 1 ≤ 0xFF :=
  ⟨joined_serves _ rfl rfl rfl rfl rfl, ⟨rfl, by decide, by decide⟩, by simp⟩

/-- A span that ends past 0xFF, one that ends at it and fails there, one that fails at its second byte, and one that passes. -/
theorem witness_Poke :
    let s := (onLink .joined).heard
    ((onLink .joined).frameReady ∧ (onLink .joined).awake = true ∧ (onLink .joined).addressed ∧
      (onLink .joined).link.state = .joined) ∧
      (1 ≤ [0#8].length ∧ (List.replicate 16 0#8).length ≤ 16 ∧ 0xFF < (0xF1#8).toNat + (List.replicate 16 0#8).length - 1 ∧
        (0xF0#8).toNat + (List.replicate 16 0#8).length - 1 ≤ 0xFF) ∧
      s.check .head (regAt 0xFF#8) 0#8 = some .readOnly ∧
      (s.check .head (regAt 0xB0#8) 11#8 = none ∧
        (s.applyWrite .head .lsel 11#8).check .head (regAt 0xB1#8) 0#8 = some .notOwner) ∧
      (s.check .head (regAt 0xB9#8) 15#8 = none ∧ s.check .head (regAt 0xBA#8) 4#8 = none) ∧
      let owned := ownedByHead (onLink .joined)
      owned.frameReady ∧ owned.awake = true ∧ owned.addressed ∧ owned.link.state = .joined ∧ owned.owns .head .sys :=
  ⟨joined_serves _ rfl rfl rfl rfl rfl, by decide +kernel, by decide +kernel, by decide +kernel, by decide +kernel,
    ⟨ready_rfl rfl rfl rfl rfl, rfl, rfl⟩, rfl, onLink_addressed .joined, rfl, by unfold State.owns; decide⟩

theorem witness_SpiTransactions :
    (∀ p ∈ [PowerState.run, .doze, .settling, .sleep, .waking],
      (inPower p (atByte .awaitCommand 0)).byteReady .awaitCommand ∧ (inPower p (atByte .awaitCommand 0)).pr.state = p) ∧
      (∀ c ∈ [HostCommand.write, .read],
        ({ atByte .awaitAddress 0 with hp.command := c } : State).byteReady .awaitAddress ∧
          ({ atByte .awaitAddress 0 with hp.command := c } : State).hp.command = c) ∧
      (atByte .statusStream 0).byteReady .statusStream ∧ (atByte .ignore 0).byteReady .ignore ∧
      ((atByte .ignore 0).Ready ∧ (atByte .ignore 0).pins.csnLow = true) ∧
      (State.reset.Ready ∧ State.reset.pins.csnLow = false) ∧ (0x00#8 ≠ 0xA0#8 ∧ 0x00#8 ≠ 0xA1#8 ∧ 0x00#8 ≠ 0xA8#8 ∧ 0x00#8 ≠ 0xAF#8) :=
  ⟨fun p _ => ⟨⟨ready_rfl rfl rfl (by cases p <;> rfl) rfl, rfl, rfl⟩, rfl⟩,
    fun _ _ => ⟨⟨ready_rfl rfl rfl rfl rfl, rfl, rfl⟩, rfl⟩, atByte_ready _ _, atByte_ready _ _,
    by simp -zeta only [ready_iff]; decide⟩

theorem witness_SpiReads :
    (∀ a : Byte, (atByte .turnaround a).byteReady .turnaround ∧ (atByte .turnaround a).hp.pointer = a) ∧
      ((atByte .readData 0xFE#8).byteReady .readData ∧ (atByte .readData 0xFE#8).hp.pointer ≠ 0xFF#8) ∧
      ((atByte .readData 0xFF#8).byteReady .readData ∧ (atByte .readData 0xFF#8).hp.pointer = 0xFF#8) ∧
      (let unwanted : JRecord := { record with wantLocal := false }
      (withBatch [unwanted, record, record] State.reset).jr.list = [unwanted] ++ record :: [record] ∧
        (∀ x ∈ [unwanted], x.wantLocal = false) ∧ record.wantLocal = true ∧
        ∀ x ∈ (withBatch [unwanted] State.reset).jr.list, x.wantLocal = false) ∧
      (let r : IqRecord :=
        { tag := 0, chan := 63, payload := List.replicate 16 1, filt := 8, broadcast := true, stamp := 0 }
      r.payload.length ≤ 16 ∧ r.filt ≤ 8 ∧ State.reset.ib.queue = []) :=
  ⟨fun a => ⟨atByte_ready _ a, rfl⟩, ⟨atByte_ready _ _, by decide⟩, ⟨atByte_ready _ _, rfl⟩, by decide, by decide⟩

/-- A full journal; CSN at either level; a lit lamp, a dark one and an awake part, a sleeping one. -/
theorem witness_StatusAndDigest :
    (withBatch (List.replicate 64 record) State.reset).jr.list.length ≤ 64 ∧
      ((hostAt 0).held = false ∧ (hostAt 0).pins.csnLow = true ∧ State.reset.held = false ∧ State.reset.pins.csnLow = false) ∧
      (let s := withLamp 11 .followLit State.reset
      s.lm.lamps[11].phase = .followLit ∧ s.lm.lamps[0].phase = .off ∧ s.pr.state = .run) ∧
      (inPower .sleep State.reset).pr.state = .sleep := by decide

theorem owned {s : State} {g : Group} (h : s.own.owner = 0#6) : s.owns .host g := by
  unfold State.owns State.ownedByOther
  rw [h]
  cases g <;> decide
theorem owns_host (a : Byte) (g : Group) : (hostAt a).owns .host g := owned rfl
theorem owns_head (g : Group) : (ownedByHead (onLink .joined)).owns .head g := by
  unfold State.owns
  cases g <;> decide
theorem head_writes (a : Byte) : (ownedByHead (onLink .joined)).writeReady .head a :=
  ⟨rfl, ⟨ready_rfl rfl rfl rfl rfl, rfl, rfl⟩, rfl, by decide, by decide⟩

/-- The host at any address in any group with the link OFF and the scanner disabled, the head likewise with the link JOINED; the
values that the clauses ask for, at the ends of their ranges. -/
theorem witness_ConfigurationWrites :
    (∀ (a : Byte) (g : Group), (hostAt a).writeReady .host a ∧ (hostAt a).owns .host g ∧ (hostAt a).linkOn = false ∧
      (hostAt a).ks.en = false) ∧
      (∀ (a : Byte) (g : Group), (ownedByHead (onLink .joined)).writeReady .head a ∧
        (ownedByHead (onLink .joined)).owns .head g ∧ (5#8).setWidth 5 = (ownedByHead (onLink .joined)).link.addr) ∧
      ((30#8).setWidth 5 ≠ 31#5 ∧ (15#8).toNat ≤ 15 ∧ (6#8).toNat ≤ 6 ∧ 1 ≤ (6#8).toNat ∧ 1 ≤ (1#8).toNat ∧ (1#8).toNat ≤ 1) ∧
      (Action.both.code.setWidth 2 = (0x0D#8).extractLsb' 1 2 ∧ (63#8).toNat ≤ 63) ∧
      ((0x75#8).extractLsb' 0 3 ≠ 6#3 ∧ (0x75#8).extractLsb' 0 3 ≠ 7#3 ∧ (16#8).toNat ≤ 16 ∧ (8#8).toNat ≤ 8) :=
  ⟨fun a g => ⟨hostAt_ready a, owns_host a g, rfl, rfl⟩, fun a g => ⟨head_writes a, owns_head g, rfl⟩, by decide⟩

theorem witness_SelectorAndLampWrites :
    (∀ a : Byte, (hostAt a).writeReady .host a ∧ (hostAt a).owns .host .lamp) ∧
      ((7#8).toNat = (7 : Fin 8).val ∧ (5#8).toNat = (5 : Fin 6).val ∧ (11#8).toNat = (11 : Fin 12).val ∧ (15#8).toNat ≤ 15) ∧
      Controller.either.code = 2#8 ∧ (1#8 ≠ 0#8) :=
  ⟨fun a => ⟨hostAt_ready a, owns_host a .lamp⟩, by decide⟩

/-- The link on at another address, the scanner and input 3 enabled: what BUSY asks for. -/
def inUse (s : State) : State :=
  { (withInput 2 0 s) with ks := { s.ks with en := true }, link := { s.link with en := true, state := .listen, addr := 5 } }

/-- The ends of every span, and the values next to every range, with the causes that Table 1-1 and R19 give them. -/
theorem witness_RefusedWrites :
    (∀ a : Byte, (hostAt a).writeReady .host a ∧ (onLink .joined).writeReady .head a) ∧
      (∀ g : Group, (hostAt 0).owns .host g ∧ ¬(onLink .joined).owns .head g) ∧
      (∀ a ∈ [0x00#8, 0x02, 0x04, 0x08, 0x0B, 0x16, 0x1F, 0x24, 0x25, 0x2A, 0x2E, 0x2F, 0x32, 0x3E, 0x40, 0x43, 0x59, 0x5B, 0x5F,
          0x64, 0x67, 0x69, 0x81, 0x8F, 0x96, 0x9F, 0xA4, 0xAF, 0xB8, 0xBC, 0xFF, 0x07],
        (hostAt a).check .host (regAt a) 0 = some .readOnly) ∧
      (∀ a ∈ [0x10#8, 0x15, 0x3F, 0x5A], (onLink .joined).check .head (regAt a) 0 = some .localOnly) ∧
      (∀ a ∈ [0x03#8, 0x05, 0x0F, 0x20, 0x23, 0x26, 0x29, 0x2B, 0x2D, 0x30, 0x31, 0x6A, 0x80, 0x41, 0x42, 0x61, 0x63, 0x90, 0x95,
          0xA0, 0xA3, 0xB1, 0xB7, 0xBB],
        (onLink .joined).check .head (regAt a) 0 = some .notOwner) ∧
      ([(0x03, 3), (0x05, 0), (0x05, 2), (0x21, 31), (0x23, 16), (0x26, 1), (0x29, 1), (0x2B, 7), (0x2C, 16), (0x2D, 0),
          (0x2D, 7), (0x31, 2), (0x6A, 0), (0x6A, 4), (0x6B, 1), (0x6C, 1), (0x6D, 64), (0x6E, 17), (0x41, 1), (0x41, 2),
          (0x41, 4), (0x42, 1), (0x62, 64), (0x91, 6), (0x91, 7), (0x92, 0), (0x92, 17), (0x93, 0), (0x93, 9), (0xA0, 22),
          (0xA3, 1), (0xB1, 3), (0xB3, 0), (0xB4, 0), (0xB7, 0), (0xBB, 1), (0x60, 8), (0x68, 6), (0xB0, 12), (0xB9, 16),
          (0xBA, 5)].all fun (p : Nat × Nat) =>
        (hostAt p.1).check .host (regAt p.1) p.2 == some .range) ∧
      (∀ p ∈ [(0x21#8, 4#8), (0x21, 31), (0x91, 0x30), (0x91, 6), (0xA3, 0x22), (0xA3, 0x34)],
        (inUse (hostAt p.1)).writeReady .host p.1 ∧ (inUse (hostAt p.1)).check .host (regAt p.1) p.2 = some .busy) ∧
      (onLink .joined).check .head .lgo 5 = some .range := by
  refine ⟨fun a => ⟨hostAt_ready a, joined_writes a⟩, fun g => ⟨owns_host 0 g, ?_⟩, by decide +kernel, by decide +kernel,
    by decide +kernel, by decide +kernel, ?_, by decide +kernel⟩
  · unfold State.owns; cases g <;> decide
  · intro p hp
    have ready : (inUse (hostAt p.1)).writeReady .host p.1 := ⟨rfl, ⟨ready_rfl rfl rfl rfl rfl, rfl, rfl⟩, rfl⟩
    refine ⟨ready, ?_⟩
    fin_cases hp <;> decide +kernel

/-- OWNER as it is, a locked group, and a group of the host. -/
theorem witness_OwnershipWrites :
    let locked : State := { hostAt 0x06#8 with own := { owner := 0x20, rlock := 0x20, restartPending := false } }
    (locked.writeReady .host 0x06#8 ∧
      (∃ n : Fin 6, locked.own.owner.getLsbD n.val = true ∧ (0#8).getLsbD n.val = false ∧
        locked.own.rlock.getLsbD n.val = true) ∧
      ∀ n : Fin 6, locked.own.owner.getLsbD n.val = true → (0xE0#8).getLsbD n.val = false →
        locked.own.rlock.getLsbD n.val = false) ∧
      (let s := onLink .joined
      (s.writeReady .head 0x06#8 ∧ s.writeReady .head 0x07#8) ∧ s.pr.straps.hostless = false ∧
        (∃ n : Fin 6, s.own.owner.getLsbD n.val = false ∧ (0x20#8).getLsbD n.val = true) ∧
        (∀ n : Fin 6, (0xC0#8).getLsbD n.val = true → s.own.owner.getLsbD n.val = true) ∧
        (∃ n : Fin 6, s.own.rlock.getLsbD n.val = false ∧ (0x20#8).getLsbD n.val = true ∧
          s.own.owner.getLsbD n.val = false) ∧
        ∀ n : Fin 6, s.own.rlock.getLsbD n.val = false → (0xC0#8).getLsbD n.val = true →
          s.own.owner.getLsbD n.val = true) ∧
      (ownedByHead (onLink .joined)).writeReady .head 0x07#8 ∧
        ∀ n : Fin 6, (ownedByHead (onLink .joined)).own.owner.getLsbD n.val = true :=
  ⟨⟨⟨rfl, ⟨ready_rfl rfl rfl rfl rfl, rfl, rfl⟩, rfl⟩, by decide, by decide⟩,
    ⟨⟨joined_writes _, joined_writes _⟩, by decide⟩, head_writes _, by decide⟩

theorem witness_PowerAndTimeWrites :
    (∀ a : Byte, (hostAt a).writeReady .host a ∧ (hostAt a).owns .host .sys) ∧
      ∀ a : Byte, (onLink .joined).writeReady .head a ∧ ¬(onLink .joined).owns .head .sys :=
  ⟨fun a => ⟨hostAt_ready a, owns_host a .sys⟩, fun a => ⟨joined_writes a, nofun⟩⟩

theorem witness_FlagAndCounterClears :
    (∀ (a : Byte) (g : Group), (hostAt a).writeReady .host a ∧ (hostAt a).owns .host g) ∧
      (∀ (a : Byte) (g : Group), (onLink .joined).writeReady .head a ∧ ¬(onLink .joined).owns .head g) ∧ (1#8 ≠ 0#8) :=
  ⟨fun a g => ⟨hostAt_ready a, owns_host a g⟩, fun a g => ⟨joined_writes a, by cases g <;> nofun⟩, by decide⟩

theorem witness_LinkEnableAndDisable :
    ((hostAt 0x20#8).writeReady .host 0x20#8 ∧ (hostAt 0x20#8).owns .host .link ∧ (hostAt 0x20#8).linkOn = false ∧
      (hostAt 0x20#8).link.en = false) ∧
      (let s := ownedByHead (onLink .joined)
      s.writeReady .head 0x20#8 ∧ s.owns .head .link ∧ s.link.en = true ∧ (1#8).extractLsb' 1 2 = s.link.rate ∧
        s.linkOn = true ∧ (7#8).extractLsb' 1 2 ≠ s.link.rate) ∧
      (onLink .joined).writeReady .head 0x20#8 ∧ ¬(onLink .joined).owns .head .link :=
  ⟨⟨hostAt_ready _, owns_host _ _, rfl, rfl⟩, ⟨head_writes _, owns_head _, by decide⟩, joined_writes _, nofun⟩

theorem witness_JournalTake :
    (let s : State := { hostAt 0x3F#8 with jr.list := [{ record with wantLocal := false }, record, record] }
    s.writeReady .host 0x3F#8 ∧ s.jr.list = [{ record with wantLocal := false }] ++ record :: [record] ∧
      (∀ x ∈ [{ record with wantLocal := false }], x.wantLocal = false) ∧ record.wantLocal = true ∧
      7#8 = record.seq ∧ 8#8 ≠ record.seq) ∧
      (∀ x ∈ (hostAt 0x3F#8).jr.list, x.wantLocal = false) ∧ (onLink .joined).writeReady .head 0x3F#8 :=
  ⟨⟨⟨rfl, ⟨ready_rfl rfl rfl rfl rfl, rfl, rfl⟩, rfl⟩, rfl, by decide⟩, by decide, joined_writes _⟩

theorem witness_InboundTake :
    (queued 12 (hostAt 0x5A#8)).writeReady .host 0x5A#8 ∧
      (∃ r rest, (queued 12 (hostAt 0x5A#8)).ib.queue = r :: rest ∧ 0#8 = r.tag ∧ 1#8 ≠ r.tag) ∧
      (hostAt 0x5A#8).ib.queue = [] ∧ (onLink .joined).writeReady .head 0x5A#8 :=
  ⟨⟨rfl, ⟨ready_rfl rfl rfl rfl rfl, rfl, rfl⟩, rfl⟩, ⟨_, _, rfl, rfl, by decide⟩, rfl, joined_writes _⟩

theorem witness_MailboxCommands :
    (∀ (a : Byte) (st : MbState), (withBox 0 st (hostAt a)).writeReady .host a ∧ (withBox 0 st (hostAt a)).owns .host .outbox ∧
      ((withBox 0 st (hostAt a)).ob.boxes[((withBox 0 st (hostAt a)).copies .host).mbsel]).state = st ∧
      ((withBox 0 st (hostAt a)).ob.boxes[((withBox 0 st (hostAt a)).copies .host).mbsel]).mail.period = 0#16) ∧
      (63#8).toNat ≤ 63 ∧ 64 ≤ (64#8).toNat ∧ (16#8).toNat ≤ 16 ∧ 17 ≤ (17#8).toNat :=
  ⟨fun a st => ⟨⟨rfl, ⟨ready_rfl rfl rfl rfl rfl, rfl, rfl⟩, rfl⟩, owned rfl, rfl, rfl⟩, by decide⟩

theorem witness_InputEnables :
    (∀ (a : Byte) (en : Bool),
      let s : State := { hostAt a with ks.en := en }
      s.writeReady .host a ∧ s.owns .host .input ∧ s.ks.en = en) ∧
      (let s := hostAt (0xA0#8 + BitVec.ofNat 8 (3 : Fin 4).val)
      s.writeReady .host (0xA0#8 + BitVec.ofNat 8 (3 : Fin 4).val) ∧ s.st.inputs[(3 : Fin 4)].en = false) ∧
      (let s := withInput 15 0 (hostAt (0xA0#8 + BitVec.ofNat 8 (3 : Fin 4).val))
      s.writeReady .host (0xA0#8 + BitVec.ofNat 8 (3 : Fin 4).val) ∧ s.owns .host .input ∧
        s.st.inputs[(3 : Fin 4)].en = true ∧ Edge.both.code.setWidth 2 = (0xF5#8).extractLsb' 1 2 ∧
        (0xF5#8).extractLsb' 4 4 ≠ 0#4 ∧ Edge.both = s.st.inputs[(3 : Fin 4)].edge ∧
        (0xF5#8).extractLsb' 4 4 = s.st.inputs[(3 : Fin 4)].debounce ∧
        (0x15#8).extractLsb' 4 4 ≠ s.st.inputs[(3 : Fin 4)].debounce) :=
  ⟨fun a en => ⟨⟨rfl, ⟨ready_rfl rfl rfl rfl rfl, rfl, rfl⟩, rfl⟩, owned rfl, rfl⟩, ⟨hostAt_ready _, rfl⟩,
    ⟨rfl, ⟨ready_rfl rfl rfl rfl rfl, rfl, rfl⟩, rfl⟩, owned rfl, by decide +kernel⟩

theorem witness_LampCommandsAndBinding :
    ((hostAt 0xBA#8).writeReady .host 0xBA#8 ∧ (hostAt 0xB2#8).writeReady .host 0xB2#8 ∧ (hostAt 0xB2#8).owns .host .lamp) ∧
      (∀ p ∈ [LampPhase.pulseWait, .pulseLit, .followLit, .followDark],
        (withLamp 0 p (hostAt 0xBA#8)).writeReady .host 0xBA#8 ∧
          (withLamp 0 p (hostAt 0xBA#8)).lm.lamps[(0 : Fin 12)].phase = p) ∧
      (let s := hostAt 0xBA#8
      s.lm.lamps[(0 : Fin 12)].ctrl = .either ∧ s.lm.lamps[(0 : Fin 12)].ldelay = 0#8 ∧
        s.lm.lamps[(0 : Fin 12)].phase = .off) ∧
      ({ (hostAt 0xBA#8).lm.lamps[(0 : Fin 12)] with ctrl := .remoteOnly, ldelay := 255 } : Lamp).ctrl = .remoteOnly :=
  ⟨⟨hostAt_ready _, hostAt_ready _, owns_host _ _⟩, fun _ _ => ⟨⟨rfl, ⟨ready_rfl rfl rfl rfl rfl, rfl, rfl⟩, rfl⟩, rfl⟩, by decide +kernel, rfl⟩

/-- JOINED with mailbox 5 in flight, a journal record for the head, an inbound record, a key held and a lamp that follows it; a tick
waits. -/
def busy : State :=
  let s := withOffer 0 (onLink .joined)
  { s with
    jr.list := [record]
    ib.queue := [{ tag := 0, chan := 63, payload := [1], filt := 8, broadcast := false, stamp := 0 }]
    ib.nextTag := 1
    ks := { s.ks with en := true, keys := s.ks.keys.set 3 { Key.up with state := .down } }
    lm := { s.lm with down := 8, lamps := s.lm.lamps.set 3 { s.lm.lamps[3] with phase := .followLit, level := 7 } }
    pending := [.msTick 0] }

theorem busy_steps : ∃ t, step busy = .next t := ⟨_, rfl⟩

theorem busy_link : busy.LinkSound :=
  { enabled := by decide, address := by decide, halfDuplex := by decide, speaks := by decide, asleep := by decide
    quiet := by decide }

theorem busy_outbound : busy.OutboundSound where
  joined := by decide
  turn f h := by
    obtain rfl : f = { item := .mailbox 5, turn := 7, resends := 0 } := (Option.some.inj h).symm
    rfl
  offered i := by
    have h : (∃ f, busy.ob.inFlight = some f ∧ f.item = .mailbox i) ↔ Item.mailbox 5 = .mailbox i :=
      ⟨fun ⟨f, h, e⟩ => by rw [← e, ← Option.some.inj h], fun h => ⟨_, rfl, h⟩⟩
    rw [h]
    revert i
    decide +kernel
  batch := by
    constructor
    · intro h
      exact absurd rfl h
    · rintro ⟨f, h, e⟩
      rw [← Option.some.inj h] at e
      exact nomatch e
  cancel := by decide +kernel

theorem busy_journal : busy.JournalSound :=
  { room := by decide, wanted := by decide, pinned := by decide, loss := by decide, offline := by decide }

theorem busy_keys : busy.KeysSound :=
  { rollover := by decide +kernel, disabled := by decide +kernel, area := by decide +kernel, down := by decide +kernel
    follow := by decide +kernel }

theorem witness_StepKeepsLocksAndRefusals :
    busy.locksOwned ∧ busy.refusalsCounted ∧ ∃ t, step busy = .next t :=
  ⟨by unfold State.locksOwned; decide, by unfold State.refusalsCounted; decide, busy_steps⟩

theorem witness_StepKeepsPortAndPower : busy.PortSound ∧ busy.PowerSound ∧ ∃ t, step busy = .next t :=
  ⟨{ idle := by decide, asleep := by decide, address := by decide, capture := by decide },
    { run := by decide, doze := by decide, sleep := by decide, request := by decide }, busy_steps⟩

theorem witness_StepKeepsLink : busy.LinkSound ∧ ∃ t, step busy = .next t := ⟨busy_link, busy_steps⟩

theorem witness_StepKeepsOutbound : busy.LinkSound ∧ busy.OutboundSound ∧ ∃ t, step busy = .next t :=
  ⟨busy_link, busy_outbound, busy_steps⟩

theorem witness_StepKeepsJournal :
    busy.LinkSound ∧ busy.OutboundSound ∧ busy.JournalSound ∧ ∃ t, step busy = .next t :=
  ⟨busy_link, busy_outbound, busy_journal, busy_steps⟩

theorem witness_StepKeepsKeys : busy.KeysSound ∧ ∃ t, step busy = .next t := ⟨busy_keys, busy_steps⟩

theorem witness_StepKeepsRecords :
    busy.InboxSound ∧ busy.inputsSound ∧ busy.lampsSound ∧ ∃ t, step busy = .next t :=
  ⟨{ room := by decide
     fields := by decide
     tags := fun i h => by
      obtain rfl : i = 0 := Nat.lt_one_iff.mp h
      rfl },
    by unfold State.inputsSound; decide +kernel,
    fun n =>
      { times := by revert n; decide +kernel, off := by revert n; decide +kernel, timed := by revert n; decide +kernel
        untimed := by revert n; decide +kernel },
    busy_steps⟩

end Sys2Proof.Tests
end

/-! SUPPORT. What a command can do, said once: the events that its step is made of, and the form of the step. -/

namespace Sys2Proof.Machine

/-! ### The events of a step -/

/-- The events that the commands' steps are made of: when one can fall due, and what it does. -/
inductive IsEvent : (State → Bool) → (State → State) → Prop
  | restart (due) : IsEvent due State.softRestart
  | wakeEnd : IsEvent State.oscillatorDue State.finishWake
  | scan {due : State → Bool} (hd : ∀ s, due s = true → s.ks.due = true) (keys) : IsEvent due (State.completeScan keys)
  | tick (due) (sns) : IsEvent due (State.tick sns)
  | sleepEntry : IsEvent State.sleepDue State.enterSleep
  | frame (bytes : State → List RxByte) : IsEvent State.frameDue fun s => s.completeFrame (bytes s)
  | frameStart : IsEvent (State.hears .hunting) State.startFrame
  | hunting : IsEvent (State.hears .awaitingIdle) State.startHunting
  | discardedByte : IsEvent (State.hears .awaitingIdle) State.discardByte
  | replyStart : IsEvent (fun s => s.link.tx.isPending) State.startReply
  | replyEnd : IsEvent (fun s => s.link.tx.isTransmitting) State.endReply
  | replyAbort : IsEvent (fun s => s.link.tx.isTransmitting) State.abortReply
  | replyCancel : IsEvent (fun s => s.link.tx.isPending) State.cancelReply
  | commandByte (b) : IsEvent (State.inPhase .awaitCommand) (State.commandByte b)
  | addressByte (b) : IsEvent (State.inPhase .awaitAddress) (State.addressByte b)
  | turnaround : IsEvent (State.inPhase .turnaround) State.turnaroundByte
  | readData : IsEvent (State.inPhase .readData) State.readByte
  | statusStream : IsEvent (State.inPhase .statusStream) State.loadOut
  | ignoredByte : IsEvent (State.inPhase .ignore) State.loadOut
  | hostWrite (addr v) : IsEvent (State.writesAt addr) (State.hostWriteByte v)
  | csnRise : IsEvent (fun s => s.pins.csnLow) State.riseCsn
  | csnFall : IsEvent (fun s => !s.pins.csnLow) State.fallCsn
  | csnWhileHeld (low) : IsEvent State.held fun s => { s with pins.csnLow := low }

/-- One event that can fall due takes place. -/
def State.Happens (s t : State) : Prop := ∃ due f, IsEvent due f ∧ due s = true ∧ f s = t

/-- Events take place one after another, each where it can fall due. -/
abbrev State.Reaches (s t : State) : Prop := Relation.ReflTransGen State.Happens s t

/-- An event that can fall due is one step of a run. -/
theorem IsEvent.reaches {due : State → Bool} {f : State → State} (e : IsEvent due f) {s : State} (h : due s = true) :
    s.Reaches (f s) := .single ⟨due, f, e, h, rfl⟩

/-- An event takes place, or nothing does where it cannot fall due. -/
theorem IsEvent.reaches_ite {due : State → Bool} {f : State → State} (e : IsEvent due f) (s : State) :
    s.Reaches (if due s then f s else s) := by
  split
  · exact e.reaches ‹_›
  · exact .refl

theorem reaches_endOfStep (s : State) : s.Reaches s.endOfStep := IsEvent.sleepEntry.reaches_ite s

theorem reaches_takeRestart (s : State) : s.Reaches s.takeRestart := (IsEvent.restart _).reaches_ite s

theorem reaches_takeOscillator (s : State) : s.Reaches s.takeOscillator := IsEvent.wakeEnd.reaches_ite s

theorem scanWaits_due (s : State) (h : s.scanWaits = true) : s.ks.due = true := by
  simp only [State.scanWaits, Bool.and_eq_true] at h
  exact h.1

theorem reaches_takeScan (s : State) : s.Reaches s.takeScan := by
  unfold State.takeScan
  split
  · exact ((IsEvent.scan scanWaits_due _).reaches ‹_›).trans (reaches_endOfStep _)
  · exact .refl

/-- The steps that R2 takes first are events that have fallen due. -/
theorem reaches_settle (s : State) : s.Reaches s.settle :=
  ((reaches_takeRestart s).trans (reaches_takeOscillator _)).trans (reaches_takeScan _)

theorem IsEvent.reaches_eventAfter {due : State → Bool} {f : State → State} (e : IsEvent due f)
    {earlier : State → State} (he : ∀ s : State, s.Reaches (earlier s)) (s : State) :
    s.Reaches (eventAfter earlier due f s) := by
  rcases eventAfter_cases earlier due f s with ⟨-, h⟩ | ⟨-, -, h⟩ | ⟨-, hd, h⟩
  · rw [h]
  · rw [h]
    exact he s
  · rw [h]
    exact ((he s).trans (e.reaches hd)).trans (reaches_endOfStep _)

theorem IsEvent.reaches_onEvent {due : State → Bool} {f : State → State} (e : IsEvent due f) (s : State) :
    s.Reaches (onEvent due f s) := e.reaches_eventAfter reaches_settle s

theorem IsEvent.reaches_onMoment {due : State → Bool} {f : State → State} (e : IsEvent due f) (s : State) :
    s.Reaches (onMoment due f s) := by
  rcases onMoment_cases due f s with ⟨-, h⟩ | ⟨-, -, h⟩ | ⟨-, hd, h⟩
  · rw [h]
  · rw [h]
    exact reaches_settle s
  · rw [h]
    exact (reaches_settle s).trans (e.reaches hd)

/-! ### The form of a command's step -/

/-- How a command's step is built. Most are one event, or one moment, after the steps that come first; the commands of resets
and the few whose step depends on more are named. -/
inductive StepForm : Instr → Prop
  | event {c due f} (e : IsEvent due f) (h : ∀ s, exec c s = .next (onEvent due f s)) : StepForm c
  | moment {c due f} (e : IsEvent due f) (h : ∀ s, exec c s = .next (onMoment due f s)) : StepForm c
  | scan {c due} (hc : ofScan c = true) (hd : ∀ s : State, due s = true → s.ks.due = true) (keys)
      (h : ∀ s, exec c s = .next (scanEvent due keys s)) : StepForm c
  | reset {c} (hc : ofReset c = true) : StepForm c
  | remoteRestart : StepForm .remoteRestart
  | oscillatorReady : StepForm .oscillatorReady
  | replyEnd : StepForm .replyEnd
  | byteWhileAwaitingIdle (b) : StepForm (.byteWhileAwaitingIdle b)
  | csnRise : StepForm .csnRise
  | csnFall : StepForm .csnFall

/-- The step of a tick under any of its names. -/
theorem StepForm.tick {c : Instr} (due : State → Bool) (sns : BitVec 4)
    (h : ∀ s, exec c s = .next (tickEvent due sns s)) : StepForm c := .event (.tick due sns) h

/-- The step of a completed frame under any of its names. -/
theorem StepForm.frame {c : Instr} (bytes : State → List RxByte) (h : ∀ s, exec c s = .next (frameEvent bytes s)) : StepForm c :=
  .event (.frame bytes) h

/-- The step of a register write under any of its names. -/
theorem StepForm.write {c : Instr} (m : Master) (addr v : Byte) (h : ∀ s, exec c s = .next (writeBy m addr v s)) : StepForm c := by
  cases m with
  | host => exact .event (.hostWrite addr v) h
  | head => exact .frame _ h

/-- The tests of the rows inside a scan imply that a scan completion is due. -/
theorem due_of_scanDue_and {due : State → Bool} (h : ∀ s, due s = true → s.scanDue = true) (s : State) (hs : due s = true) :
    s.ks.due = true := by
  have := h s hs
  simp only [State.scanDue, Bool.and_eq_true] at this
  exact this.1

theorem releases_scanDue (k keys) (s : State) (h : s.releases k keys = true) : s.scanDue = true := by
  simp only [State.releases, Bool.and_eq_true] at h
  exact h.1.1

theorem presses_scanDue (k keys) (s : State) (h : s.presses k keys = true) : s.scanDue = true := by
  simp only [State.presses, Bool.and_eq_true] at h
  exact h.1.1

theorem becomesLong_scanDue (k keys) (s : State) (h : s.becomesLong k keys = true) : s.scanDue = true := by
  simp only [State.becomesLong, Bool.and_eq_true] at h
  exact h.1.1.1

theorem repeats_scanDue (k keys) (s : State) (h : s.repeats k keys = true) : s.scanDue = true := by
  simp only [State.repeats, Bool.and_eq_true] at h
  exact h.1.1.1

theorem wakeScanDue_due (s : State) (h : s.wakeScanDue = true) : s.ks.due = true := by
  simp only [State.wakeScanDue, Bool.and_eq_true] at h
  exact h.1

/-- The form of every command. -/
theorem stepForm : ∀ c : Instr, StepForm c
  | .powerOnReset _ | .pinReset _ | .resetHeldLow | .supplyBelowRange => .reset rfl
  | .remoteRestart => .remoteRestart
  | .oscillatorReady => .oscillatorReady
  | .replyEnd => .replyEnd
  | .byteWhileAwaitingIdle b => .byteWhileAwaitingIdle b
  | .csnRise => .csnRise
  | .csnFall => .csnFall
  | .msTick _ | .senseFlip .. | .silenceWatchdogExpiry _ | .quietPeriodExpiry _ | .refreshElapse .. | .phaseEnd .. =>
    .tick _ _ fun _ => rfl
  | .scanCompletion _ => .scan rfl (fun _ h => h) _ fun _ => rfl
  | .debouncedRelease k keys => .scan rfl (due_of_scanDue_and (releases_scanDue k keys)) _ fun _ => rfl
  | .debouncedPress k keys => .scan rfl (due_of_scanDue_and (presses_scanDue k keys)) _ fun _ => rfl
  | .keyLong k keys => .scan rfl (due_of_scanDue_and (becomesLong_scanDue k keys)) _ fun _ => rfl
  | .keyRepeat k keys => .scan rfl (due_of_scanDue_and (repeats_scanDue k keys)) _ fun _ => rfl
  | .wakeScan _ => .scan rfl wakeScanDue_due _ fun _ => rfl
  | .sleepEntry => .moment .sleepEntry fun _ => rfl
  | .frameStart => .event .frameStart fun _ => rfl
  | .hunting => .moment .hunting fun _ => rfl
  | .frameCompletion _ | .linkWakeRequest _ | .rollcall | .rollcallBySerial .. | .poll .. | .deliver .. | .broadcastDeliver ..
  | .peek .. | .poke .. | .hush .. | .beacon .. | .clash .. => .frame _ fun _ => rfl
  | .replyStart => .moment .replyStart fun _ => rfl
  | .replyAbort => .event .replyAbort fun _ => rfl
  | .replyCancel => .event .replyCancel fun _ => rfl
  | .write | .read | .status | .wake | .unassignedCommand _ => .event (.commandByte _) fun _ => rfl
  | .statusStream _ => .event .statusStream fun _ => rfl
  | .ignoredByte _ => .event .ignoredByte fun _ => rfl
  | .addressByte b => .event (.addressByte b) fun _ => rfl
  | .turnaround _ => .event .turnaround fun _ => rfl
  | .readData _ => .event .readData fun _ => rfl
  | .softRestart => .write .host 0x05#8 0x01#8 fun _ => rfl
  | .registerWrite .. | .grant _ | .reclaim _ | .giveBack _ | .seize _ | .lock _ | .unlock _
  | .requestRun _ | .requestDoze _ | .requestSleep _ | .localtimeStage .. | .localtimeCommit ..
  | .flagClear .. | .refusedClear _ | .bitmapClear .. | .counterClear .. | .linkEnable .. | .linkDisable ..
  | .jtake _ | .iqtake _ | .load _ | .arm _ | .cancel _ | .mailboxStage .. | .scannerEnable .. | .scannerDisable ..
  | .senseEnable .. | .senseDisable .. | .lgoOff _ | .lgoOn _ | .lgoBlink _ | .lgoPulse _ | .lgoFollow _ | .lbindWrite .. =>
    .write _ _ _ fun _ => rfl

/-- A command that is no reset answers a state that events lead to, each where it can fall due (log 12). -/
theorem exec_reaches (c : Instr) (s : State) (hr : ofReset c = false) : ∃ t : State, exec c s = .next t ∧ s.Reaches t := by
  cases stepForm c with
  | event e h => exact ⟨_, h s, e.reaches_onEvent s⟩
  | moment e h => exact ⟨_, h s, e.reaches_onMoment s⟩
  | scan _ hd keys h =>
    exact ⟨_, h s, (IsEvent.scan hd keys).reaches_eventAfter
      (fun s => (reaches_takeRestart s).trans (reaches_takeOscillator _)) s⟩
  | reset hc => simp [hc] at hr
  | remoteRestart =>
    refine ⟨_, rfl, ?_⟩
    split
    · exact (IsEvent.restart _).reaches_eventAfter (fun _ => .refl) s
    · exact (IsEvent.restart _).reaches_onEvent s
  | oscillatorReady => exact ⟨_, rfl, IsEvent.wakeEnd.reaches_eventAfter reaches_takeRestart s⟩
  | replyEnd =>
    refine ⟨_, rfl, ?_⟩
    split
    · exact (IsEvent.restart _).reaches_onEvent s
    · exact IsEvent.replyEnd.reaches_onMoment s
  | byteWhileAwaitingIdle b =>
    refine ⟨_, rfl, ?_⟩
    split
    · exact IsEvent.discardedByte.reaches_onEvent s
    · exact IsEvent.discardedByte.reaches_onMoment s
  | csnRise =>
    refine ⟨_, rfl, ?_⟩
    split
    · exact (IsEvent.csnWhileHeld false).reaches ‹_›
    · exact IsEvent.csnRise.reaches_onEvent s
  | csnFall =>
    refine ⟨_, rfl, ?_⟩
    split
    · exact (IsEvent.csnWhileHeld true).reaches ‹_›
    · exact IsEvent.csnFall.reaches_onMoment s

end Sys2Proof.Machine

/-! SUPPORT. The order of R2: once the steps that come first lead from one state to another, every later command has the same
step in both. -/

namespace Sys2Proof.Machine

/-! ### States that the steps that come first lead to -/

/-- The steps that come first lead from `s` to `t`, where none is left, and leave the replies that a command can depend on. -/
structure State.SettlesTo (s t : State) : Prop where
  running : s.held = false
  running' : t.held = false
  settle : s.settle = t
  settled : t.Settled
  tx : t.link.tx = s.link.tx
  /-- A restart that was pending has stayed so, or no reply is there whose end it could wait for. -/
  pending : t.own.restartPending = s.own.restartPending ∨ t.link.tx = .idle

theorem State.Settled.settle {t : State} (h : t.Settled) : t.settle = t := settle_of_settled h.restart h.oscillator h.scan

theorem State.Settled.takeRestart {t : State} (h : t.Settled) : t.takeRestart = t := if_neg (by simp [h.restart])

theorem State.Settled.takeOscillator {t : State} (h : t.Settled) : t.takeOscillator = t := if_neg (by simp [h.oscillator])

/-- Once no step comes first, the end of waking has no effect. -/
theorem State.Settled.exec_oscillatorReady {t : State} (h : t.Settled) : exec .oscillatorReady t = .next t := by
  simp [exec, execOscillatorReady, eventAfter, h.takeRestart, h.oscillator]

/-- A pending restart whose reply has ended is carried out at once (R64). -/
theorem exec_remoteRestart_of_waits {s : State} (hh : s.held = false) (hw : s.restartWaits = true) :
    exec .remoteRestart s = .next s.softRestart := by
  have hr : s.softRestart.pr.state ≠ .settling := nofun
  simp [exec, execRemoteRestart, hw, eventAfter, hh, endOfStep_of_not_settling _ hr]

/-- With the transmitter idle no restart is due but one that has come first. -/
theorem restartDue_of_idle {s : State} (h : s.link.tx = .idle) : s.restartDue = s.restartWaits := by
  simp [State.restartDue, State.restartWaits, h, Transmitter.isPending]

/-- The remote restart has the same step after the steps that come first. -/
theorem exec_remoteRestart_of_settlesTo {s t : State} (h : s.SettlesTo t) :
    exec .remoteRestart s = exec .remoteRestart t := by
  have ht := h.settled.restart
  cases hw : s.restartWaits
  · simp only [exec, execRemoteRestart, hw, ht, Bool.false_eq_true, if_false]
    rw [onEvent_of_settle_eq h.running h.running' h.settle h.settled.settle]
  · have hst : t = s.softRestart := by
      rw [← h.settle, State.settle, State.takeRestart, if_pos hw]
      obtain ⟨-, h2, h3⟩ := softRestart_settled s
      simp [State.takeOscillator, State.takeScan, h2, h3]
    have hi : t.link.tx = .idle := by rw [hst]; rfl
    rw [exec_remoteRestart_of_waits h.running hw, ← hst]
    simp only [exec, execRemoteRestart, ht, Bool.false_eq_true, if_false]
    rw [onEvent_of_not_due h.settled.settle (by rw [restartDue_of_idle hi, ht])]

/-- With no reply being sent in `t`, the end of a reply leaves what the steps that come first lead to. -/
theorem exec_replyEnd_of_idle {s t : State} (hh : s.held = false) (h : s.settle = t) (hi : t.link.tx = .idle) :
    exec .replyEnd s = .next t := by
  simp [exec, execReplyEnd, onEvent, onMoment, eventAfter, hh, h, hi, Transmitter.isTransmitting]

/-- R2: after the steps that come first every command has the step that it had before them. A scan completion needs that no scan
was among them; the end of waking, that it was the last of them or had none. -/
theorem exec_eq_of_settlesTo {c : Instr} {s t : State} (h : s.SettlesTo t) (hr : ofReset c = false)
    (hscan : ofScan c = true → s.takeRestart.takeOscillator = t)
    (hosc : c = .oscillatorReady → exec .oscillatorReady s = .next t) : exec c s = exec c t := by
  have hts := h.settled.settle
  cases stepForm c with
  | event _ hf => rw [hf, hf, onEvent_of_settle_eq h.running h.running' h.settle hts]
  | moment _ hf => rw [hf, hf, onMoment_of_settle_eq h.running h.running' h.settle hts]
  | scan hc _ keys hf =>
    rw [hf, hf]
    simp [scanEvent, eventAfter, h.running, h.running', hscan hc, h.settled.takeRestart,
      h.settled.takeOscillator]
  | reset hc => simp [hc] at hr
  | remoteRestart => exact exec_remoteRestart_of_settlesTo h
  | oscillatorReady => rw [hosc rfl, h.settled.exec_oscillatorReady]
  | replyEnd =>
    rcases h.pending with hp | hi
    · simp only [exec, execReplyEnd, hp]
      rw [onEvent_of_settle_eq h.running h.running' h.settle hts, onMoment_of_settle_eq h.running h.running' h.settle hts]
    · rw [exec_replyEnd_of_idle h.running h.settle hi, exec_replyEnd_of_idle h.running' hts hi]
  | byteWhileAwaitingIdle b =>
    simp only [exec, execByteWhileAwaitingIdle, h.tx]
    rw [onEvent_of_settle_eq h.running h.running' h.settle hts, onMoment_of_settle_eq h.running h.running' h.settle hts]
  | csnRise =>
    simp only [exec, execCsnRise, h.running, h.running', Bool.false_eq_true, if_false]
    rw [onEvent_of_settle_eq h.running h.running' h.settle hts]
  | csnFall =>
    simp only [exec, execCsnFall, h.running, h.running', Bool.false_eq_true, if_false]
    rw [onMoment_of_settle_eq h.running h.running' h.settle hts]

/-! ### A restart that has fallen due -/

theorem restartWaits_of_idle {s : State} (hp : s.own.restartPending = true) (hi : s.link.tx = .idle) :
    s.restartWaits = true := by simp [State.restartWaits, hp, hi]

theorem takeRestart_of_waits {s : State} (h : s.restartWaits = true) : s.takeRestart = s.softRestart := if_pos h

theorem softRestart_isSettled (s : State) : s.softRestart.Settled := ⟨rfl, rfl, rfl⟩

/-- R2, R64: a restart that has fallen due is the only step that comes first. -/
theorem settlesTo_softRestart {s : State} (hh : s.held = false) (hp : s.own.restartPending = true)
    (hi : s.link.tx = .idle) : s.SettlesTo s.softRestart where
  running := hh
  running' := hh
  settle := by
    rw [State.settle, takeRestart_of_waits (restartWaits_of_idle hp hi)]
    exact (softRestart_isSettled s).settle
  settled := softRestart_isSettled s
  tx := hi.symm
  pending := .inr rfl

/-- The end of waking finds the part in RUN where a restart comes before it. -/
theorem exec_oscillatorReady_of_restart {s : State} (hh : s.held = false) (hw : s.restartWaits = true) :
    exec .oscillatorReady s = .next s.softRestart := by
  have ho : s.softRestart.oscillatorDue = false := rfl
  simp [exec, execOscillatorReady, eventAfter, hh, takeRestart_of_waits hw, ho]

/-! ### The end of waking -/

theorem oscillatorDue_of {s : State} (hs : s.pr.state = .waking) (ht : 2 ≤ s.pr.wakeTicks) : s.oscillatorDue = true := by
  simp [State.oscillatorDue, hs, ht]

theorem takeRestart_of_not_waits {s : State} (h : s.restartWaits = false) : s.takeRestart = s := if_neg (by simp [h])

theorem takeOscillator_of_due {s : State} (h : s.oscillatorDue = true) : s.takeOscillator = s.finishWake := if_pos h

theorem takeOscillator_of_not_due {s : State} (h : s.oscillatorDue = false) : s.takeOscillator = s := if_neg (by simp [h])

/-- The end of waking leaves the part in RUN, with the wake under way as its cause (R190). -/
theorem finishWake_pr (s : State) : s.finishWake.pr =
    { s.pr with
      state := .run, power := 0, cause := (s.pr.request.getD (.key, 0#8)).1, woken := true, request := none
      wakeTicks := 0 } := by
  unfold State.finishWake
  rcases s.pr.request.getD (.key, 0#8) with ⟨c, d⟩
  simp only [raise1_pr, record_eq]

@[simp] theorem finishWake_pins (s : State) : s.finishWake.pins = s.pins := by rw [finishWake_eq]

@[simp] theorem finishWake_own (s : State) : s.finishWake.own = s.own := by rw [finishWake_eq]

@[simp] theorem finishWake_link (s : State) : s.finishWake.link = { s.link with watchdog := 0 } := by rw [finishWake_eq]

/-- The step of the end of waking, where no restart comes before it. -/
theorem exec_oscillatorReady_of_due {s : State} (hh : s.held = false) (hw : s.restartWaits = false)
    (ho : s.oscillatorDue = true) : exec .oscillatorReady s = .next s.finishWake := by
  have hr : s.finishWake.pr.state ≠ .settling := by simp [finishWake_pr]
  simp [exec, execOscillatorReady, eventAfter, hh, takeRestart_of_not_waits hw, ho, endOfStep_of_not_settling _ hr]

/-- R2, R190: the end of waking that is due is the only step that comes first, where no restart comes before it. -/
theorem settlesTo_finishWake {s : State} (hh : s.held = false) (hw : s.restartWaits = false)
    (ho : s.oscillatorDue = true) : s.SettlesTo s.finishWake where
  running := hh
  running' := by simpa [State.held] using hh
  settle := by
    rw [State.settle, takeRestart_of_not_waits hw, takeOscillator_of_due ho, State.takeScan,
      if_neg (by simp [(finishWake_settled s).2])]
  settled := ⟨by simpa [State.restartWaits] using hw, (finishWake_settled s).1, (finishWake_settled s).2⟩
  tx := by simp
  pending := by simp

/-! ### A scan completion that has fallen due -/

theorem awake_or_sleep {s : State} (h : s.pr.state ≠ .waking) : s.awake = true ∨ s.pr.state = .sleep := by
  revert h
  unfold State.awake PowerState.awake
  cases s.pr.state <;> simp

/-- A wake scan restarts the scan clock, keeps the switches as read, and requests a wake if a used key reads pressed (R146). -/
theorem completeScan_sleep (keys : BitVec 48) {s : State} (h : s.pr.state = .sleep) :
    s.completeScan keys = { s with
      pins.switches := keys, ks.clock := 0, ks.due := false
      pr := match s.ks.lowestPressed keys with
        | some k => { s.pr with state := .waking, request := some (.key, BitVec.ofNat 8 k.val), wakeTicks := 0 }
        | none => s.pr } := by
  unfold State.completeScan State.wakeScan
  rw [h]
  cases s.ks.lowestPressed keys with
  | none => rfl
  | some k => simp [State.requestWake, h]

/-- What a scan completion leaves as it was, and that it is done. -/
theorem completeScan_facts (keys : BitVec 48) {s : State} (h : s.pr.state ≠ .waking) :
    (s.completeScan keys).link = s.link ∧ (s.completeScan keys).own = s.own ∧
      (s.completeScan keys).held = s.held ∧ (s.completeScan keys).ks.due = false ∧
      (s.completeScan keys).oscillatorDue = false := by
  rcases awake_or_sleep h with ha | hs
  · rw [scan_exec keys s ha]
    exact ⟨rfl, rfl, rfl, rfl, by simp [State.oscillatorDue, h]⟩
  · rw [completeScan_sleep keys hs]
    refine ⟨rfl, rfl, rfl, rfl, ?_⟩
    cases s.ks.lowestPressed keys <;> simp [State.oscillatorDue, hs]

@[simp] theorem endOfStep_pins (s : State) : s.endOfStep.pins = s.pins := by rw [endOfStep_eq]

@[simp] theorem endOfStep_link (s : State) : s.endOfStep.link = s.link := by rw [endOfStep_eq]

@[simp] theorem endOfStep_own (s : State) : s.endOfStep.own = s.own := by rw [endOfStep_eq]

/-- Entry into SLEEP makes no scan fall due. -/
theorem enterSleep_due {s : State} (h : s.ks.due = false) : s.enterSleep.ks.due = false := by
  cases he : s.ks.en
  · rw [enterSleep_of_disabled s he]
    exact h
  · rw [enterSleep_of_enabled s he, forcedRelease_eq]
    rfl

@[simp] theorem enterSleep_state (s : State) : s.enterSleep.pr.state = .sleep := by rw [enterSleep_eq]

/-- The end of a step makes nothing fall due. -/
theorem endOfStep_settled {s : State} (h : s.Settled) (hd : s.ks.due = false) : s.endOfStep.Settled := by
  rcases endOfStep_cases s with he | ⟨-, -, he⟩
  · rwa [he]
  · refine ⟨by simpa [State.restartWaits] using h.restart, ?_, ?_⟩ <;> rw [he]
    · simp [State.oscillatorDue]
    · simp [State.scanWaits, enterSleep_due hd]

/-- The step of a scan completion that is due, where nothing comes before it. -/
theorem exec_scanCompletion_of_ready (keys : BitVec 48) {s : State} (h : s.ScanReady) (ho : s.oscillatorDue = false) :
    exec (.scanCompletion keys) s = .next (s.completeScan keys).endOfStep :=
  congrArg _ (scanEvent_of_due h.running h.restart ho h.due)

theorem oscillatorDue_of_not_waking {s : State} (h : s.pr.state ≠ .waking) : s.oscillatorDue = false := by
  simp [State.oscillatorDue, h]

/-- R2, R134: a scan completion that is due is the only step that comes first, with the switches as the last scan found them. -/
theorem settlesTo_scan {s : State} (h : s.ScanReady) (hs : s.pr.state ≠ .waking) :
    s.SettlesTo (s.completeScan s.pins.switches).endOfStep := by
  obtain ⟨hlink, hown, hheld, hdue, hosc⟩ := completeScan_facts s.pins.switches hs
  exact
    { running := h.running
      running' := by simpa [State.held] using hheld.trans h.running
      settle := by
        have hw : s.scanWaits = true := by simp [State.scanWaits, h.due, hs]
        rw [State.settle, takeRestart_of_not_waits h.restart,
          takeOscillator_of_not_due (oscillatorDue_of_not_waking hs), State.takeScan, if_pos hw]
      settled := endOfStep_settled
        ⟨by rw [State.restartWaits, hlink, hown]; exact h.restart, hosc, by simp [State.scanWaits, hdue]⟩ hdue
      tx := by rw [endOfStep_link, hlink]
      pending := .inl (by rw [endOfStep_own, hown]) }

end Sys2Proof.Machine

/-! SUPPORT. What no event changes: the serial number, the queue of commands and the sampled straps. -/

namespace Sys2Proof.Machine

/-- What tells the part apart from another and comes to it from outside: SERIAL (R13), the commands that wait (log 1) and the
straps as last sampled (R191). -/
def State.identity (s : State) : BitVec 48 × List Instr × Straps := (s.serial, s.pending, s.pr.straps)

/-! ### Operations that every block uses -/

@[simp] theorem raise0_identity (m : Byte) (s : State) : (s.raise0 m).identity = s.identity := rfl

@[simp] theorem raise1_identity (m : Byte) (s : State) : (s.raise1 m).identity = s.identity := rfl

@[simp] theorem updCopies_identity (m : Master) (f : Copies → Copies) (s : State) :
    (s.updCopies m f).identity = s.identity := by cases m <;> rfl

@[simp] theorem recordAll_identity (es : List Event) (s : State) : (s.recordAll es).identity = s.identity := by
  simp [State.identity]

@[simp] theorem forcedRelease_identity (s : State) : s.forcedRelease.identity = s.identity := by
  rw [forcedRelease_eq]; rfl

@[simp] theorem requestWake_identity (c : WakeCause) (d : Byte) (s : State) :
    (s.requestWake c d).identity = s.identity := by unfold State.requestWake; split <;> rfl

@[simp] theorem enterSleep_identity (s : State) : s.enterSleep.identity = s.identity := by rw [enterSleep_eq]; rfl

@[simp] theorem finishWake_identity (s : State) : s.finishWake.identity = s.identity := by
  rw [State.identity, finishWake_pr, finishWake_eq]; rfl

@[simp] theorem softRestart_identity (s : State) : s.softRestart.identity = s.identity := rfl

/-! ### The tick and the scan -/

@[simp] theorem returnToSource_identity (s : State) : s.returnToSource.identity = s.identity := by simp [State.identity]

@[simp] theorem loseHead_identity (s : State) : s.loseHead.identity = s.identity := returnToSource_identity s

@[simp] theorem tickWatchdog_identity (s : State) : s.tickWatchdog.identity = s.identity := by
  unfold State.tickWatchdog
  split
  · exact loseHead_identity s
  · split <;> rfl

@[simp] theorem tickQuiet_identity (s : State) : s.tickQuiet.identity = s.identity := by
  unfold State.tickQuiet
  split
  · rfl
  · split
    · split <;> rfl
    · rfl
    · rfl

@[simp] theorem tickRefresh_identity (s : State) : s.tickRefresh.identity = s.identity := by
  unfold State.tickRefresh State.tickMailboxes
  split
  · dsimp only
    split <;> rfl
  · rfl

@[simp] theorem tickLamps_identity (s : State) : s.tickLamps.identity = s.identity := by
  unfold State.tickLamps
  split
  · exact recordAll_identity _ _
  · rfl

@[simp] theorem tickSense_identity (sns : BitVec 4) (s : State) : (s.tickSense sns).identity = s.identity := by
  unfold State.tickSense
  split
  · exact recordAll_identity _ _
  · exact recordAll_identity _ _
  · exact recordAll_identity _ _
  · split
    · exact requestWake_identity _ _ _
    · rfl
  · rfl

theorem tick_identity (sns : BitVec 4) (s : State) : (s.tick sns).identity = s.identity := by
  have hscan (x : State) : x.tickScan.identity = x.identity := rfl
  have htime : s.tickTime.identity = s.identity := rfl
  simp [State.tick, hscan, htime]

theorem completeScan_identity (keys : BitVec 48) (s : State) : (s.completeScan keys).identity = s.identity := by
  by_cases hw : s.pr.state = .waking
  · rw [State.completeScan, hw]
  · rcases awake_or_sleep hw with ha | hs
    · rw [scan_exec keys s ha]; rfl
    · rw [completeScan_sleep keys hs, State.identity]
      cases s.ks.lowestPressed keys <;> rfl

/-! ### Replies and link states -/

@[simp] theorem reply_identity (kind : FrameKind) (tn : BitVec 3) (front back : List Byte) (s : State) :
    (s.reply kind tn front back).identity = s.identity := rfl

@[simp] theorem replyReceipt_identity (code detail : Byte) (s : State) :
    (s.replyReceipt code detail).identity = s.identity := rfl

@[simp] theorem replyHello_identity (s : State) : s.replyHello.identity = s.identity := rfl

@[simp] theorem replyPoll_identity (s : State) : s.replyPoll.identity = s.identity := by
  unfold State.replyPoll; split <;> rfl

@[simp] theorem enterJoined_identity (s : State) : s.enterJoined.identity = s.identity := rfl

@[simp] theorem join_identity (s : State) : s.join.identity = s.identity := by
  unfold State.join; split <;> simp

@[simp] theorem joinAt_identity (addr : BitVec 5) (s : State) : (s.joinAt addr).identity = s.identity :=
  returnToSource_identity s

@[simp] theorem unassign_identity (s : State) : s.unassign.identity = s.identity := returnToSource_identity s

@[simp] theorem clash_identity (s : State) : s.clash.identity = s.identity := returnToSource_identity s

@[simp] theorem hush_identity (d : Half) (s : State) : (s.hush d).identity = s.identity := by
  unfold State.hush
  split
  · exact returnToSource_identity s
  all_goals rfl

@[simp] theorem beacon_identity (flags : Byte) (time : BitVec 32) (s : State) :
    (s.beacon flags time).identity = s.identity := by unfold State.beacon; split <;> rfl

@[simp] theorem disableLink_identity (s : State) : s.disableLink.identity = s.identity := by
  rw [disableLink_eq s s rfl rfl]; rfl

@[simp] theorem enableLink_identity (s : State) : s.enableLink.identity = s.identity := rfl

@[simp] theorem cancelPending_identity (s : State) : s.cancelPending.identity = s.identity := by
  unfold State.cancelPending; split <;> rfl

theorem startReply_identity (s : State) : s.startReply.identity = s.identity := by
  unfold State.startReply; split <;> rfl

/-! ### POLL and DELIVER -/

@[simp] theorem acknowledge_identity (f : InFlight) (s : State) : (s.acknowledge f).identity = s.identity := by
  unfold State.acknowledge; split <;> rfl

@[simp] theorem withdraw_identity (f : InFlight) (s : State) : (s.withdraw f).identity = s.identity := by
  unfold State.withdraw; split <;> rfl

@[simp] theorem dropItem_identity (f : InFlight) (s : State) : (s.dropItem f).identity = s.identity := by
  unfold State.dropItem; split <;> rfl

@[simp] theorem resendItem_identity (f : InFlight) (s : State) : (s.resendItem f).identity = s.identity := rfl

@[simp] theorem composeItem_identity (i : Item) (s : State) : (s.composeItem i).identity = s.identity := by
  unfold State.composeItem; split <;> rfl

@[simp] theorem pollAcknowledge_identity (av : Bool) (tn : BitVec 3) (s : State) :
    (s.pollAcknowledge av tn).identity = s.identity := by
  unfold State.pollAcknowledge
  split
  · rfl
  · split <;> simp

@[simp] theorem pollUnacknowledged_identity (s : State) : s.pollUnacknowledged.identity = s.identity := by
  unfold State.pollUnacknowledged
  split
  · rfl
  · split
    · simp
    · split <;> simp

@[simp] theorem pollSelect_identity (s : State) : s.pollSelect.identity = s.identity := by
  unfold State.pollSelect
  split
  · rfl
  · split <;> simp

@[simp] theorem pollStages_identity (av : Bool) (tn : BitVec 3) (s : State) :
    (s.pollStages av tn).identity = s.identity := by simp [State.pollStages]

@[simp] theorem applyDelivery_identity (chan : Byte) (payload : List Byte) (v : Verdict) (stores broadcast : Bool)
    (s : State) : (s.applyDelivery chan payload v stores broadcast).identity = s.identity := by
  unfold State.applyDelivery
  cases stores <;> cases v.action.lamps <;> cases v.notify <;> rfl

@[simp] theorem deliver_identity (tn : BitVec 3) (chan : Byte) (payload : List Byte) (s : State) :
    (s.deliver tn chan payload).1.identity = s.identity := by
  unfold State.deliver
  split
  · rfl
  split
  · rfl
  split
  · rfl
  dsimp only
  split
  · rfl
  · exact applyDelivery_identity ..

@[simp] theorem deliverAll_identity (chan : Byte) (payload : List Byte) (s : State) :
    (s.deliverAll chan payload).identity = s.identity := by
  unfold State.deliverAll
  split
  · rfl
  dsimp only
  split
  · exact applyDelivery_identity ..
  · exact applyDelivery_identity ..

/-! ### Registers -/

@[simp] theorem install_identity (m : Master) (f : SnapField) (bs : List Byte) (s : State) :
    (s.install m f bs).identity = s.identity := updCopies_identity ..

theorem foldl_install_identity (m : Master) (bytes : SnapField → List Byte) (fs : List SnapField) (s : State) :
    (fs.foldl (fun acc f => acc.install m f (bytes f)) s).identity = s.identity := by
  induction fs generalizing s with
  | nil => rfl
  | cons f rest ih => rw [List.foldl_cons, ih, install_identity]

@[simp] theorem captureSpan_identity (addr : Byte) (n : Nat) (s : State) :
    (s.captureSpan addr n).identity = s.identity := foldl_install_identity .head _ _ s

@[simp] theorem writeLinkCtl_identity (v : Byte) (s : State) : (s.writeLinkCtl v).identity = s.identity := by
  unfold State.writeLinkCtl
  dsimp only
  split
  · rfl
  · split
    · exact disableLink_identity _
    · rfl

@[simp] theorem writeScanCtl_identity (v : Byte) (s : State) : (s.writeScanCtl v).identity = s.identity := by
  unfold State.writeScanCtl
  dsimp only
  split
  · rfl
  · split
    · exact forcedRelease_identity _
    · rfl

@[simp] theorem writeLocalTime_identity (m : Master) (i : Fin 4) (v : Byte) (s : State) :
    (s.writeLocalTime m i v).identity = s.identity := by
  unfold State.writeLocalTime
  dsimp only
  split
  · exact updCopies_identity ..
  · exact updCopies_identity ..

@[simp] theorem writeMbCmd_identity (m : Master) (v : Byte) (s : State) :
    (s.writeMbCmd m v).identity = s.identity := by
  unfold State.writeMbCmd
  split
  · rfl
  · split <;> rfl

@[simp] theorem clearFlags0_identity (v : Byte) (s : State) : (s.clearFlags0 v).identity = s.identity := by
  unfold State.clearFlags0
  dsimp only
  split <;> rfl

@[simp] theorem applyWrite_identity (m : Master) (r : Reg) (v : Byte) (s : State) :
    (s.applyWrite m r v).identity = s.identity := by
  cases r
  case linkCtl => exact writeLinkCtl_identity v s
  case scanCtl => exact writeScanCtl_identity v s
  case localTime i => exact writeLocalTime_identity m i v s
  case mbCmd => exact writeMbCmd_identity m v s
  case iflags0 => exact clearFlags0_identity v s
  all_goals cases m <;> rfl

@[simp] theorem writeSpan_identity (addr : Byte) (vs : List Byte) (s : State) :
    (s.writeSpan addr vs).identity = s.identity := by
  induction vs generalizing s addr with
  | nil => rfl
  | cons v rest ih => rw [State.writeSpan, ih, applyWrite_identity]

@[simp] theorem servePeek_identity (addr count : Byte) (s : State) : (s.servePeek addr count).identity = s.identity := by
  unfold State.servePeek; split <;> simp

@[simp] theorem servePoke_identity (addr : Byte) (data : List Byte) (s : State) :
    (s.servePoke addr data).identity = s.identity := by
  unfold State.servePoke
  split
  · rfl
  split
  · rfl
  dsimp only
  split <;> simp

/-! ### Completed frames -/

@[simp] theorem serveRollcall_identity (s : State) : s.serveRollcall.identity = s.identity := by
  unfold State.serveRollcall; split <;> simp

@[simp] theorem serveRollcallBySerial_identity (body : List Byte) (s : State) :
    (s.serveRollcallBySerial body).identity = s.identity := by
  unfold State.serveRollcallBySerial
  split
  · split <;> simp
  · rfl

@[simp] theorem serveDeliver_identity (tn : BitVec 3) (chan : Byte) (payload : List Byte) (s : State) :
    (s.serveDeliver tn chan payload).identity = s.identity := deliver_identity tn chan payload s

theorem dispatch_identity (f : Frame) (s : State) : (s.dispatch f).identity = s.identity := by
  unfold State.dispatch
  cases f.kind <;> dsimp only
  case rollcall => split <;> simp
  case poll => split <;> simp [State.servePoll]
  case deliver =>
    split
    · split <;> simp
    · split <;> simp
  case peek | poke => split <;> simp
  case hush | beacon => simp

theorem processFrame_identity (c : FrameClass) (s : State) : (s.processFrame c).identity = s.identity := by
  cases c with
  | valid f =>
    unfold State.processFrame State.noticeSatellite
    dsimp only
    split
    · exact dispatch_identity f _
    · split
      · exact clash_identity s
      · rfl
  | badFormat | badCrc | unknownKind | misdirected => rfl

theorem completeFrame_identity (bytes : List RxByte) (s : State) : (s.completeFrame bytes).identity = s.identity := by
  unfold State.completeFrame
  dsimp only
  split
  · split
    · exact requestWake_identity ..
    · rfl
  · rfl
  all_goals exact processFrame_identity _ _

/-! ### SPI bytes -/

@[simp] theorem loadOut_identity (s : State) : s.loadOut.identity = s.identity := by
  unfold State.loadOut; split <;> rfl

@[simp] theorem advance_identity (s : State) : s.advance.identity = s.identity := by
  unfold State.advance; split <;> rfl

@[simp] theorem fetch_identity (s : State) : s.fetch.identity = s.identity := by
  unfold State.fetch; split <;> rfl

theorem commandByte_identity (b : Byte) (s : State) : (s.commandByte b).identity = s.identity := by
  unfold State.commandByte
  rw [loadOut_identity]
  split
  · split <;> rfl
  split
  · split <;> rfl
  split
  · rfl
  split
  · exact requestWake_identity ..
  · rfl

theorem readByte_identity (s : State) : s.readByte.identity = s.identity := by
  have hc : s.settleCapture.identity = s.identity := by
    unfold State.settleCapture
    split
    · exact install_identity ..
    · rfl
  unfold State.readByte
  dsimp only
  split <;> simp [hc]

@[simp] theorem captureRefusal_identity (a : Byte) (c : Cause) (s : State) :
    (s.captureRefusal a c).identity = s.identity := by
  unfold State.captureRefusal; dsimp only; split <;> rfl

theorem hostWriteByte_identity (v : Byte) (s : State) : (s.hostWriteByte v).identity = s.identity := by
  unfold State.hostWriteByte
  dsimp only
  split
  · simp
  · split <;> simp

/-! ### Every event -/

/-- No event changes the serial number, the queue or the straps. -/
theorem IsEvent.identity {due : State → Bool} {f : State → State} (e : IsEvent due f) (s : State) :
    (f s).identity = s.identity := by
  cases e with
  | restart => exact softRestart_identity s
  | wakeEnd => exact finishWake_identity s
  | scan _ keys => exact completeScan_identity keys s
  | tick _ sns => exact tick_identity sns s
  | sleepEntry => exact enterSleep_identity s
  | frame bytes => exact completeFrame_identity (bytes s) s
  | frameStart | discardedByte => exact cancelPending_identity s
  | replyStart => exact startReply_identity s
  | commandByte b => exact commandByte_identity b s
  | addressByte b => exact loadOut_identity _
  | turnaround => exact fetch_identity _
  | readData => exact readByte_identity s
  | statusStream | ignoredByte => exact loadOut_identity s
  | hostWrite _ v => exact hostWriteByte_identity v s
  | hunting | replyEnd | replyAbort | replyCancel | csnRise | csnFall | csnWhileHeld => rfl

/-- No run of events changes the serial number, the queue or the straps. -/
theorem State.Reaches.identity {s t : State} (h : s.Reaches t) : t.identity = s.identity := by
  induction h with
  | refl => rfl
  | tail _ hstep ih =>
    obtain ⟨due, f, e, -, rfl⟩ := hstep
    rw [e.identity, ih]

end Sys2Proof.Machine

/-! SUPPORT. The resets, the rows inside a tick or a scan, and the scan completion. -/

namespace Sys2Proof.Machine

/-! ### Resets -/

/-- A reset command ends with the straps that it carries sampled, or with the part still held and the straps as they were
(R191). -/
theorem resetUnlessHeld_straps (p : Straps) (s : State) :
    (s.resetUnlessHeld p).pr.straps = s.pr.straps ∨ (s.resetUnlessHeld p).pr.straps = p := by
  unfold State.resetUnlessHeld
  split
  · exact .inl rfl
  · exact .inr rfl

theorem resetUnlessHeld_serial (p : Straps) (s : State) : (s.resetUnlessHeld p).serial = s.serial := by
  unfold State.resetUnlessHeld; split <;> rfl

theorem resetUnlessHeld_pending (p : Straps) (s : State) : (s.resetUnlessHeld p).pending = s.pending := by
  unfold State.resetUnlessHeld; split <;> rfl

/-- A part that is not held takes the reset step. -/
theorem resetUnlessHeld_of_not_held (p : Straps) {s : State} (h : s.held = false) :
    s.resetUnlessHeld p = s.powerOnReset p := if_neg (by simp [h])

/-- With RESETN high, the supply's return to its range ends the hold (R191). -/
theorem exec_powerOnReset_of_high (p : Straps) {s : State} (h : s.pins.resetnLow = false) :
    exec (.powerOnReset p) s = .next (State.powerOnReset p { s with pins.supplyLow := false }) :=
  congrArg _ (resetUnlessHeld_of_not_held p (by simp [State.held, h]))

/-- With the supply in its range, RESETN going high ends the hold (R191). -/
theorem exec_pinReset_of_supplied (p : Straps) {s : State} (h : s.pins.supplyLow = false) :
    exec (.pinReset p) s = .next (State.powerOnReset p { s with pins.resetnLow := false }) :=
  congrArg _ (resetUnlessHeld_of_not_held p (by simp [State.held, h]))

/-- With an empty journal and inbound queue IFLAGS1 shows RESTARTED alone where that is its only event flag (R178, R185). -/
theorem iflags1_of_restarted {s : State} (hj : s.jr.list = []) (hq : s.ib.queue = [])
    (hf : s.ia.flags1 = restartedFlag) : s.iflags1 = 0x10#8 := by
  have hjrnl : s.jrnl = false := by simp [State.jrnl, Journal.localCount, hj]
  have hinbox : s.inbox = false := by simp [State.inbox, hq]
  simp [State.iflags1, hjrnl, hinbox, hf, bit, restartedFlag]

/-- The reset step leaves the power-on column of Table 11-1 (R193). -/
theorem powerOnReset_table (p : Straps) (s : State) : (s.powerOnReset p).PowerOnTable p where
  power := ⟨rfl, rfl, rfl, rfl, rfl⟩
  ownership := rfl
  configuration := ⟨rfl, rfl, rfl, rfl, rfl, rfl, rfl, rfl, rfl, rfl, rfl, rfl, rfl, rfl, rfl, rfl, rfl, rfl, rfl⟩
  link := ⟨rfl, rfl, rfl, rfl, rfl, rfl, rfl, rfl, rfl, rfl⟩
  refusal := rfl
  outbound := ⟨rfl, rfl, rfl⟩
  boxes i := by simp [State.powerOnReset, Outbound.powerOn, Mailbox.powerOn]
  journal := ⟨rfl, rfl, rfl, rfl, rfl, rfl⟩
  inbound := ⟨rfl, rfl, rfl, rfl⟩
  filters i := by simp [State.powerOnReset, Inbound.powerOn, Filter.powerOn]
  keys k := by simp [State.powerOnReset, Scanner.powerOn, Key.up]
  clock := rfl
  time := ⟨rfl, rfl⟩
  inputs n := by
    have h : (s.powerOnReset p).st.inputs[n] = SenseInput.powerOn := by simp [State.powerOnReset, Sense.powerOn]
    rw [h]
    exact ⟨rfl, rfl, rfl, rfl⟩
  lamps n := by simp [State.powerOnReset, Lamps.powerOn, Lamp.powerOn]
  denied := ⟨rfl, rfl⟩
  flags := ⟨rfl, iflags1_of_restarted rfl rfl rfl, rfl, rfl, rfl, rfl⟩
  copies m := by cases m <;> exact ⟨rfl, rfl, rfl, rfl, rfl, rfl, rfl⟩
  port := ⟨rfl, rfl, rfl⟩

/-- A soft restart leaves the soft-restart column of Table 11-1 (R192, R193). -/
theorem softRestart_table (s : State) : s.SoftRestartTable s.softRestart where
  power := ⟨rfl, rfl, rfl, rfl, rfl⟩
  ownership := rfl
  configuration := ⟨rfl, rfl, rfl, rfl, rfl, rfl, rfl, rfl, rfl, rfl, rfl, rfl, rfl, rfl, rfl, rfl, rfl, rfl, rfl⟩
  link := ⟨rfl, rfl, rfl, rfl, rfl, rfl, rfl, rfl, rfl, rfl⟩
  refusal := rfl
  outbound := ⟨rfl, rfl, rfl⟩
  boxes i := by simp [State.softRestart, Outbound.restart, Mailbox.restart, Mailbox.powerOn]
  journal := ⟨rfl, rfl, rfl, rfl, rfl, rfl⟩
  inbound := ⟨rfl, rfl, rfl, rfl⟩
  filters := rfl
  keys k := by simp [State.softRestart, Scanner.restart, Key.up]
  clock := rfl
  time := ⟨rfl, rfl⟩
  inputs n := by simp [State.softRestart, Sense.restart, SenseInput.unprimed]
  lamps n := by simp [State.softRestart, Lamps.restart, Lamp.restart]
  denied := ⟨rfl, rfl⟩
  flags := ⟨rfl, iflags1_of_restarted rfl rfl rfl, rfl, rfl, rfl, rfl⟩
  copies m := by cases m <;> exact ⟨rfl, rfl, rfl, rfl, rfl, rfl, rfl⟩
  port := ⟨rfl, rfl, rfl⟩

/-- The access check lets the owner of SYS write 0x01 to RESTART (R11, R19). -/
theorem check_restart {s : State} (ho : s.owns .host .sys) : s.check .host .restart 0x01#8 = none := by
  have hn : s.notOwner .host .restart 0x01#8 = false := ho
  simp [State.check, hn, State.busy, outOfRange, State.mismatch, Reg.writeClass]

/-- R11: the owner's write of 0x01 to RESTART is a soft restart. -/
theorem exec_softRestart_of_ready {s : State} (h : s.byteReady .writeData) (hp : s.hp.pointer = 0x05#8)
    (ho : s.owns .host .sys) : exec .softRestart s = .next s.softRestart := by
  obtain ⟨hready, hcsn, hphase⟩ := h
  have hdue : State.writesAt 0x05#8 s = true := by simp [State.writesAt, State.inPhase, hcsn, hphase, hp]
  have hreg : regAt 0x05#8 = .restart := rfl
  have hw : s.hostWriteByte 0x01#8 = s.softRestart := by
    simp [State.hostWriteByte, hp, hreg, check_restart ho, State.applyWrite]
  have hrun : s.softRestart.pr.state ≠ .settling := nofun
  simp only [exec, execSoftRestart, hostWrite]
  rw [Ready.onEvent_of_due hready hdue, hw, endOfStep_of_not_settling _ hrun]

/-- R64: the end of the transmission of its RECEIPT is the step of a pending restart. -/
theorem exec_remoteRestart_of_transmitting {s : State} (h : s.Ready) (hp : s.own.restartPending = true) {r : List Byte}
    (ht : s.link.tx = .transmitting r) : exec .remoteRestart s = .next s.softRestart := by
  have hdue : s.restartDue = true := by simp [State.restartDue, hp, ht, Transmitter.isPending]
  have hrun : s.softRestart.pr.state ≠ .settling := nofun
  simp only [exec, execRemoteRestart, h.settled.restart, Bool.false_eq_true, if_false]
  rw [Ready.onEvent_of_due h hdue, endOfStep_of_not_settling _ hrun]

/-! ### Rows inside a tick or a scan -/

/-- A row inside a tick stands for that tick where what it names comes about, and for nothing elsewhere (logs 12 and 13). -/
theorem exec_rowOfTick {c : Instr} {due : State → Bool} {sns : BitVec 4} {s : State} (hs : s.settle = s)
    (hc : exec c s = .next (tickEvent due sns s)) :
    exec c s = if due s then exec (.msTick sns) s else .next s := by
  rw [hc]
  cases hd : due s
  · exact congrArg _ (onEvent_of_not_due hs hd)
  · simp [exec, execMsTick, tickEvent, onEvent, eventAfter, hs, hd]

/-- A row inside a scan stands for that scan where what it names comes about, and for nothing elsewhere (logs 12 and 13). -/
theorem exec_rowOfScan {c : Instr} {due : State → Bool} {keys : BitVec 48} {s : State} (hr : s.restartWaits = false)
    (ho : s.oscillatorDue = false) (hdue : due s = true → s.ks.due = true)
    (hc : exec c s = .next (scanEvent due keys s)) :
    exec c s = if due s then exec (.scanCompletion keys) s else .next s := by
  rw [hc]
  cases hd : due s
  · exact congrArg _ (scanEvent_of_not_due hr ho hd)
  · simp [exec, execScanCompletion, scanEvent, eventAfter, takeRestart_of_not_waits hr, takeOscillator_of_not_due ho, hd,
      hdue hd]

/-! ### Scan completions in RUN, DOZE and SETTLING -/

theorem not_waking_of_awake {s : State} (h : s.awake = true) : s.pr.state ≠ .waking := by
  intro hw
  simp [State.awake, hw, PowerState.awake] at h

theorem oscillatorDue_of_awake {s : State} (h : s.awake = true) : s.oscillatorDue = false :=
  oscillatorDue_of_not_waking (not_waking_of_awake h)

/-- A lamp in FOLLOW goes with the down set; any other lamp stays as it is (R172). -/
theorem takeDown_lamp (down : BitVec 48) (lm : Lamps) (n : Fin 12) :
    (lm.takeDown down).lamps[n] = if lm.lamps[n].phase.following
      then { lm.lamps[n] with phase := if down.getLsbD lm.lamps[n].bind.toNat then .followLit else .followDark }
      else lm.lamps[n] := by
  have h : (lm.takeDown down).lamps[n] = lm.lamps[n].refollow down := by simp [Lamps.takeDown]
  exact h

end Sys2Proof.Machine

/-! SUPPORT. The ms tick in every power state, and each timer and input by itself. -/

namespace Sys2Proof.Machine

/-! ### One timer or input at a tick -/

/-- A refresh that is not running stays as it is (R97). -/
theorem mailbox_tick_of_stopped {b : Mailbox} (h : b.running = false) : b.tick = b := by
  simp [Mailbox.tick, Mailbox.elapses, h]

/-- A refresh that runs on loses 1 (R97). -/
theorem mailbox_tick_of_running {b : Mailbox} (h : b.running = true) (hr : 2 ≤ b.remaining) :
    b.tick = { b with remaining := b.remaining - 1 } := by
  have hn : ¬b.remaining ≤ 1 := by omega
  simp [Mailbox.tick, Mailbox.elapses, h, hn]

/-- A lamp in an untimed phase stays as it is (R170). -/
theorem lamp_tick_of_untimed {l : Lamp} (h : l.phase.timed = false) : l.tick = l := by simp [Lamp.tick, Lamp.ends, h]

/-- A phase that goes on loses 1 (R170). -/
theorem lamp_tick_of_timed {l : Lamp} (h : l.phase.timed = true) (hr : 2 ≤ l.remaining) :
    l.tick = { l with remaining := l.remaining - 1 } := by
  have hn : ¬l.remaining ≤ 1 := by omega
  simp [Lamp.tick, Lamp.ends, h, hn]

/-- The lamps of a tick, one by one (R170). -/
theorem lamps_tick_getElem (lm : Lamps) (n : Fin 12) : lm.tick.lamps[n] = lm.lamps[n].tick := by simp [Lamps.tick]

theorem sample_of_disabled {i : SenseInput} (raw : Bool) (h : i.en = false) : i.sample raw = i := by
  simp [SenseInput.sample, h]

/-- The first sample after enabling primes the input (R152). -/
theorem sample_of_unprimed {i : SenseInput} (raw : Bool) (h : i.en = true) (hp : i.primed = false) :
    i.sample raw = { i with primed := true, level := raw, counter := 0 } := by simp [SenseInput.sample, h, hp]

/-- A sample that does not differ sets the debounce counter back (R152). -/
theorem sample_of_same {i : SenseInput} {raw : Bool} (h : i.en = true) (hp : i.primed = true) (hr : raw = i.level) :
    i.sample raw = { i with counter := 0 } := by simp [SenseInput.sample, h, hp, hr]

/-- A sample that differs moves the debounce counter on (R152). -/
theorem sample_of_differing {i : SenseInput} {raw : Bool} (h : i.en = true) (hp : i.primed = true) (hr : raw ≠ i.level)
    (hc : i.counter + 1 < i.debounce.toNat) : i.sample raw = { i with counter := i.counter + 1 } := by
  have hn : ¬i.debounce.toNat ≤ i.counter + 1 := by omega
  simp [SenseInput.sample, SenseInput.flips, h, hp, hr, hn]

/-- The DEBOUNCE-th sample in a row that differs is taken as the level (R152). -/
theorem sample_of_flip {i : SenseInput} {raw : Bool} (h : i.en = true) (hp : i.primed = true) (hr : raw ≠ i.level)
    (hc : i.debounce.toNat ≤ i.counter + 1) : i.sample raw = { i with level := raw, counter := 0 } := by
  simp [SenseInput.sample, SenseInput.flips, h, hp, hr, hc]

/-- The inputs of a tick, one by one (R152). -/
theorem sampleAll_getElem (st : Sense) (sns : BitVec 4) (n : Fin 4) :
    (st.sampleAll sns).inputs[n] = st.inputs[n].sample (sns.getLsbD n.val) := by simp [Sense.sampleAll]

/-! ### The scan clock at a tick -/

/-- The scan clock of a scanner that is not clocked is held at 0 (R134). -/
theorem scanner_tick_of_stopped {ks : Scanner} {p : PowerState} (h : ks.clocked p = false) :
    ks.tick p = { ks with clock := 0, due := false } := by simp [Scanner.tick, h]

/-- The scan clock of a clocked scanner is counted, and a scan falls due when the interval is reached (R134). -/
theorem scanner_tick_of_clocked {ks : Scanner} {p : PowerState} (h : ks.clocked p = true) (hd : ks.due = false) :
    ks.tick p = { ks with clock := min 64 (ks.clock + 1), due := decide (ks.interval p ≤ min 64 (ks.clock + 1)) } := by
  simp [Scanner.tick, h, hd]

theorem clocked_of_disabled {ks : Scanner} (p : PowerState) (h : ks.en = false) : ks.clocked p = false := by
  simp [Scanner.clocked, h]

/-- The scan interval in RUN, DOZE and SETTLING (R134). -/
theorem interval_of_awake (ks : Scanner) {p : PowerState} (h : p.awake = true) :
    ks.interval p = if p = .doze then ks.period.toNat * 4 else ks.period.toNat := by
  cases p <;> simp [Scanner.interval, PowerState.awake] at h ⊢

/-- In a part that is ready and not waking no scan is due. -/
theorem Ready.scan_not_due {s : State} (h : s.Ready) (hs : s.pr.state ≠ .waking) : s.ks.due = false := by
  have hw := h.settled.scan
  simpa [State.scanWaits, hs] using hw

/-- The scan clock of an enabled scanner in RUN, DOZE and SETTLING (R134). -/
theorem scanner_tick_of_awake {s : State} (h : s.Ready) (ha : s.awake = true) (he : s.ks.en = true) :
    s.ks.tick s.pr.state = { s.ks with
      clock := min 64 (s.ks.clock + 1)
      due := decide ((if s.pr.state = .doze then s.ks.period.toNat * 4 else s.ks.period.toNat) ≤
        min 64 (s.ks.clock + 1)) } := by
  have hc : s.ks.clocked s.pr.state = true := by
    rw [Scanner.clocked, he, show s.pr.state.awake = true from ha]
    rfl
  rw [scanner_tick_of_clocked hc (Ready.scan_not_due h (not_waking_of_awake ha)), interval_of_awake s.ks ha]

/-- The scan clock in SLEEP with SLEEPWAKE 1 (R134). -/
theorem scanner_tick_of_sleep {s : State} (h : s.Ready) (hs : s.pr.state = .sleep) (he : s.ks.en = true)
    (hw : s.ks.sleepWake = true) :
    s.ks.tick .sleep = { s.ks with
      clock := min 64 (s.ks.clock + 1), due := decide (s.ks.period.toNat * 4 ≤ min 64 (s.ks.clock + 1)) } :=
  scanner_tick_of_clocked (by simp [Scanner.clocked, he, hw]) (Ready.scan_not_due h (by simp [hs]))

/-- Restarting the scan clock after a tick leaves what restarting it before would (R189). -/
theorem scanner_tick_restarted (ks : Scanner) (p : PowerState) :
    ({ ks.tick p with clock := 0, due := false } : Scanner) = { ks with clock := 0, due := false } := by
  unfold Scanner.tick
  split <;> rfl

/-! ### The ms tick in RUN, DOZE and SETTLING -/

/-- The ms tick of a ready part is taken as it comes. -/
theorem exec_msTick_of_ready (sns : BitVec 4) {s : State} (h : s.Ready) :
    exec (.msTick sns) s = .next (s.tick sns).endOfStep := congrArg _ (Ready.onEvent_of_due h rfl)

/-- The quiet-period timer after a tick in which it does not run out (R45). -/
def State.quietLeft (s : State) : Quiet :=
  match s.link.quiet with
  | .left ms => if s.link.state = .hushed then .left (ms - 1) else .left ms
  | .stopped => .stopped
  | .untilRollcall => .untilRollcall

theorem quietLeft_of_left {s : State} {ms : Nat} (h : s.link.quiet = .left ms) :
    s.quietLeft = if s.link.state = .hushed then .left (ms - 1) else .left ms := by rw [State.quietLeft, h]

theorem quietLeft_of_stopped {s : State} (h : s.link.quiet = .stopped) : s.quietLeft = .stopped := by
  rw [State.quietLeft, h]

theorem quietLeft_of_untilRollcall {s : State} (h : s.link.quiet = .untilRollcall) : s.quietLeft = .untilRollcall := by
  rw [State.quietLeft, h]

/-- The watchdog after a tick in which it does not expire: held at 0 while SILENCE is 0 (R48). -/
def State.watchdogLeft (s : State) : Nat :=
  if s.watchdogRuns then (if s.link.silence = 0#8 then 0 else s.link.watchdog + 1) else s.link.watchdog

theorem tickWatchdog_of_running {s : State} (h : s.watchdogExpires = false) :
    s.tickWatchdog = { s with link.watchdog := s.watchdogLeft } := by
  rw [State.tickWatchdog, if_neg (by simp [h]), State.watchdogLeft]
  split <;> rfl

theorem tickQuiet_of_running {s : State} (ha : s.awake = true) (h : s.quietExpires = false) :
    s.tickQuiet = { s with link.quiet := s.quietLeft } := by
  rw [State.tickQuiet, if_neg (by simp [h])]
  split <;> rename_i hq
  · rw [quietLeft_of_left hq]
    by_cases hh : s.link.state = .hushed
    · rw [if_pos (by simp [hh, ha]), if_pos hh]
    · rw [if_neg (by simp [hh]), if_neg hh, ← hq]
  · rw [quietLeft_of_stopped hq, ← hq]
  · rw [quietLeft_of_untilRollcall hq, ← hq]

/-- Local time and the link timers in a tick in which neither link timer expires (R45, R48, R156). -/
theorem tickFront_of_running {s : State} (ha : s.awake = true) (hw : s.watchdogExpires = false)
    (hq : s.quietExpires = false) : tickFront s = { s with
      st.localTime := s.st.localTime + 1, link.watchdog := s.watchdogLeft, link.quiet := s.quietLeft } := by
  rw [tickFront, tickTime_awake s ha]
  set a : State := { s with st.localTime := s.st.localTime + 1 }
  have h1 : a.tickWatchdog = { a with link.watchdog := a.watchdogLeft } := tickWatchdog_of_running hw
  rw [h1]
  exact tickQuiet_of_running ha hq

/-- The records of a tick in which the watchdog does not expire meet the link as it was. -/
theorem tickBase_of_running {s : State} (hw : s.watchdogExpires = false) :
    s.tickBase = { s with st.localTime := s.st.localTime + 1 } := by simp [State.tickBase, hw]

/-- A flag raised or not. -/
theorem or_ite_zero {p : Prop} [Decidable p] (a m : Byte) : (a ||| if p then m else 0#8) = if p then a ||| m else a := by
  split <;> simp

/-- The whole tick in RUN, DOZE and SETTLING in which neither link timer expires. -/
theorem tick_of_running (sns : BitVec 4) {s : State} (ha : s.awake = true) (hw : s.watchdogExpires = false)
    (hq : s.quietExpires = false) : s.tick sns = { s with
      st := { (s.st.sampleAll sns) with localTime := s.st.localTime + 1 }
      link.watchdog := s.watchdogLeft
      link.quiet := s.quietLeft
      ob.boxes := tabulate fun i => s.ob.boxes[i].tick
      lm := s.lm.tick
      ks := s.ks.tick s.pr.state
      jr := (s.tickBase.recordAll (s.lm.tickEvents ++ s.st.sampleEvents sns)).jr
      ia.flags0 := if ∃ i : Fin 6, s.ob.boxes[i].stale = true then s.ia.flags0 ||| mbStaleFlag else s.ia.flags0
      ia.flags1 := (s.tickBase.recordAll (s.lm.tickEvents ++ s.st.sampleEvents sns)).ia.flags1 } := by
  rw [tick_awake sns s ha, tickFront_of_running ha hw hq, or_ite_zero]

/-- The mailboxes after such a tick, one by one (R97). -/
theorem tick_box (sns : BitVec 4) {s : State} (ha : s.awake = true) (hw : s.watchdogExpires = false)
    (hq : s.quietExpires = false) (i : Fin 6) : (s.tick sns).ob.boxes[i] = s.ob.boxes[i].tick := by
  simp [tick_of_running sns ha hw hq]

theorem tick_lm (sns : BitVec 4) {s : State} (ha : s.awake = true) : (s.tick sns).lm = s.lm.tick := by
  rw [tick_awake sns s ha]

theorem tick_ks (sns : BitVec 4) {s : State} (ha : s.awake = true) : (s.tick sns).ks = s.ks.tick s.pr.state := by
  rw [tick_awake sns s ha]

theorem tick_input (sns : BitVec 4) {s : State} (ha : s.awake = true) (n : Fin 4) :
    (s.tick sns).st.inputs[n] = s.st.inputs[n].sample (sns.getLsbD n.val) := by
  rw [tick_awake sns s ha]
  exact sampleAll_getElem s.st sns n

/-! ### The ms tick in SLEEP and WAKING -/

theorem awake_of_sleep {s : State} (h : s.pr.state = .sleep) : s.awake = false := by simp [State.awake, h, PowerState.awake]

theorem awake_of_waking {s : State} (h : s.pr.state = .waking) : s.awake = false := by simp [State.awake, h, PowerState.awake]

/-- The whole tick in WAKING (R190). -/
theorem tick_of_waking (sns : BitVec 4) {s : State} (h : s.pr.state = .waking) : s.tick sns = { s with
    st.localTime := s.st.localTime + 1, pr.wakeTicks := s.pr.wakeTicks + 1, ks.clock := 0, ks.due := false } := by
  have hk : s.ks.tick .waking = { s.ks with clock := 0, due := false } :=
    scanner_tick_of_stopped (by simp [Scanner.clocked, PowerState.awake])
  rw [State.tick, tickFront_asleep s (awake_of_waking h)]
  simp [State.tickTime, State.tickScan, State.tickSense, h, hk]

theorem tickTime_of_not_waking {s : State} (h : s.pr.state ≠ .waking) :
    s.tickTime = { s with st.localTime := s.st.localTime + 1 } := by rw [State.tickTime, if_neg h]

/-- The whole tick in SLEEP, but for the sense inputs (R134, R156). -/
theorem tick_of_sleep (sns : BitVec 4) {s : State} (h : s.pr.state = .sleep) :
    s.tick sns =
      State.tickSense sns { s with st.localTime := s.st.localTime + 1, ks := s.ks.tick .sleep } := by
  rw [State.tick, tickFront_asleep s (awake_of_sleep h), tickTime_of_not_waking (by simp [h]), State.tickScan]
  dsimp only
  rw [h]

/-- In SLEEP no input asks for a wake: the sense inputs are left alone (R154). -/
theorem tickSense_of_quiet {sns : BitVec 4} {s : State} (h : s.pr.state = .sleep)
    (hn : ∀ n : Fin 4, s.st.inputs[n].asksWake (sns.getLsbD n.val) = false) : s.tickSense sns = s := by
  have hw : s.st.wakeInput sns = none := by
    rw [Sense.wakeInput, ← Fin.find?_eq_find?_finRange, Fin.find?_eq_none_iff]
    exact hn
  simp [State.tickSense, h, hw]

/-- In SLEEP the lowest input that asks for a wake moves the part to WAKING (R154, R189). -/
theorem tickSense_of_wake {sns : BitVec 4} {s : State} (h : s.pr.state = .sleep) {n : Fin 4}
    (hn : s.st.inputs[n].asksWake (sns.getLsbD n.val) = true)
    (hlow : ∀ k : Fin 4, k < n → s.st.inputs[k].asksWake (sns.getLsbD k.val) = false) :
    s.tickSense sns = { s with
      ks.clock := 0, ks.due := false
      pr := { s.pr with state := .waking, request := some (.sense, BitVec.ofNat 8 n.val), wakeTicks := 0 } } := by
  have hw : s.st.wakeInput sns = some n := by
    rw [Sense.wakeInput, ← Fin.find?_eq_find?_finRange, Fin.find?_eq_some_iff]
    exact ⟨hn, hlow⟩
  simp [State.tickSense, State.requestWake, h, hw]

/-- The whole tick in SLEEP in which no input asks for a wake (R134, R156). -/
theorem tick_of_sleep_quiet {sns : BitVec 4} {s : State} (h : s.pr.state = .sleep)
    (hn : ∀ n : Fin 4, s.st.inputs[n].asksWake (sns.getLsbD n.val) = false) :
    s.tick sns = { s with st.localTime := s.st.localTime + 1, ks := s.ks.tick .sleep } :=
  (tick_of_sleep sns h).trans (tickSense_of_quiet h hn)

/-- The whole tick in SLEEP in which input `n` is the lowest that asks for a wake (R154, R189). -/
theorem tick_of_sleep_wake {sns : BitVec 4} {s : State} (h : s.pr.state = .sleep) {n : Fin 4}
    (hn : s.st.inputs[n].asksWake (sns.getLsbD n.val) = true)
    (hlow : ∀ k : Fin 4, k < n → s.st.inputs[k].asksWake (sns.getLsbD k.val) = false) :
    s.tick sns = { s with
      st.localTime := s.st.localTime + 1, ks.clock := 0, ks.due := false
      pr := { s.pr with state := .waking, request := some (.sense, BitVec.ofNat 8 n.val), wakeTicks := 0 } } := by
  rw [tick_of_sleep sns h]
  have hsense := tickSense_of_wake (s := { s with st.localTime := s.st.localTime + 1, ks := s.ks.tick .sleep }) h hn hlow
  rw [hsense, scanner_tick_restarted]

end Sys2Proof.Machine

/-! The statements of the scope, settled: steps, identity, resets, the tick, the scan completion and the end of waking. -/

namespace Sys2Proof.Proofs

open Sys2Proof.Machine

/-- Settles O1, by the two cases of the queue. -/
theorem stepRunsFrontCommand : Obligations.StepRunsFrontCommand := by
  refine ⟨fun c rest s h => ?_, fun s h => ?_⟩ <;> rw [step, h]

/-- Settles O2: the reset commands by themselves, every other command by the events that it is made of. -/
theorem commandsKeepIdentity : Obligations.CommandsKeepIdentity := by
  intro c s
  cases hr : ofReset c with
  | false =>
    obtain ⟨t, he, ht⟩ := exec_reaches c s hr
    have hi := ht.identity
    simp only [State.identity, Prod.mk.injEq] at hi
    obtain ⟨hserial, hpending, hstraps⟩ := hi
    exact ⟨t, he, hserial, hpending, .inl hstraps⟩
  | true =>
    match c, hr with
    | .powerOnReset p, _ =>
      refine ⟨_, rfl, resetUnlessHeld_serial p _, resetUnlessHeld_pending p _, ?_⟩
      exact (resetUnlessHeld_straps p _).imp_right fun h => .inl (by rw [h])
    | .pinReset p, _ =>
      refine ⟨_, rfl, resetUnlessHeld_serial p _, resetUnlessHeld_pending p _, ?_⟩
      exact (resetUnlessHeld_straps p _).imp_right fun h => .inr (by rw [h])
    | .resetHeldLow, _ | .supplyBelowRange, _ => exact ⟨_, rfl, rfl, rfl, .inl rfl⟩

/-- Settles O4: the two columns of Table 11-1, and R2's order by the steps that come first. -/
theorem resets : Obligations.Resets := by
  refine ⟨fun p s => ⟨fun h => ?_, fun h => ?_⟩, fun s => ⟨fun hb hp ho => ?_, fun hh hp htx => ?_⟩, ?_⟩
  · exact ⟨_, exec_powerOnReset_of_high p h, powerOnReset_table p _, rfl, rfl, rfl⟩
  · exact ⟨_, exec_pinReset_of_supplied p h, powerOnReset_table p _, rfl, rfl, rfl⟩
  · exact ⟨_, exec_softRestart_of_ready hb hp ho, softRestart_table s, rfl, rfl, rfl⟩
  · refine ⟨_, ?_, softRestart_table s, rfl, rfl, rfl⟩
    rcases htx with hi | ⟨hready, r, ht⟩
    · exact exec_remoteRestart_of_waits hh (restartWaits_of_idle hp hi)
    · exact exec_remoteRestart_of_transmitting hready hp ht
  · intro c s t hh hp hi he hc
    have hw := restartWaits_of_idle hp hi
    obtain rfl : s.softRestart = t := by
      simpa [exec_remoteRestart_of_waits hh hw] using he
    refine exec_eq_of_settlesTo (settlesTo_softRestart hh hp hi) hc (fun _ => ?_) fun _ => ?_
    · rw [takeRestart_of_waits hw, (softRestart_isSettled s).takeOscillator]
    · exact exec_oscillatorReady_of_restart hh hw

/-- Settles O17: the end of waking written out, then R2's order by the steps that come first. -/
theorem oscillatorReady : Obligations.OscillatorReady := by
  refine ⟨fun s c d hh hr hs ht hq => ?_, fun c s t hh hr hs ht he hc => ?_⟩
  · rw [exec_oscillatorReady_of_due hh hr (oscillatorDue_of hs ht)]
    simp only [State.finishWake, hq, Option.getD_some, State.raise1, record_eq]
    rfl
  · have ho := oscillatorDue_of hs ht
    have hx := exec_oscillatorReady_of_due hh hr ho
    obtain rfl : s.finishWake = t := by simpa [hx] using he
    refine exec_eq_of_settlesTo (settlesTo_finishWake hh hr ho) hc (fun _ => ?_) fun _ => hx
    rw [takeRestart_of_not_waits hr, takeOscillator_of_due ho]

/-- Settles O6: each row by the test that names what comes about in its tick or scan. -/
theorem subRowsAreTheirTickOrScan : Obligations.SubRowsAreTheirTickOrScan := by
  intro s sns keys hr ho
  refine ⟨fun hw => ?_, fun k => ?_, fun k => ?_, fun k => ?_, fun k => ?_, ?_⟩
  · have hs := settle_of_settled hr ho hw
    exact ⟨fun _ => exec_rowOfTick hs rfl, exec_rowOfTick hs rfl, exec_rowOfTick hs rfl, fun _ => exec_rowOfTick hs rfl,
      fun _ => exec_rowOfTick hs rfl⟩
  · exact exec_rowOfScan hr ho (due_of_scanDue_and (releases_scanDue k keys) s) rfl
  · exact exec_rowOfScan hr ho (due_of_scanDue_and (presses_scanDue k keys) s) rfl
  · exact exec_rowOfScan hr ho (due_of_scanDue_and (becomesLong_scanDue k keys) s) rfl
  · exact exec_rowOfScan hr ho (due_of_scanDue_and (repeats_scanDue k keys) s) rfl
  · exact exec_rowOfScan hr ho (wakeScanDue_due s) rfl

/-- Settles O11: the first part is one scan written out, the second R2's order by the steps that come first. -/
theorem scanCompletion : Obligations.ScanCompletion := by
  refine ⟨fun keys s h ha => ?_, fun c s t h hs he hc hscan hosc => ?_⟩
  · refine ⟨_, exec_scanCompletion_of_ready keys h (oscillatorDue_of_awake ha), scan_exec keys s ha, ?_⟩
    rw [scan_exec keys s ha]
    have hset := scan_settings s.ks keys s.ks.clock
    generalize s.ks.scan keys s.ks.clock = x at hset ⊢
    exact ⟨fun k => downSet_bit x.1 k, fun n => takeDown_lamp x.1.downSet s.lm n,
      congrArg (fun ks : Scanner => { ks with clock := 0, due := false }) hset⟩
  · have hx := exec_scanCompletion_of_ready s.pins.switches h (oscillatorDue_of_not_waking hs)
    obtain rfl : (s.completeScan s.pins.switches).endOfStep = t := by simpa [hx] using he
    exact exec_eq_of_settlesTo (settlesTo_scan h hs) hc (fun h' => by simp [hscan] at h') fun h' => absurd h' hosc

/-- Settles O5: the tick in RUN, DOZE and SETTLING with each timer and input by itself, then the tick in SLEEP and WAKING. -/
theorem tick : Obligations.Tick := by
  refine ⟨fun sns s h ha hw hq => ?_, fun sns s h => ⟨fun hs => ?_, fun hs => ⟨fun hn => ?_, fun n hn hlow => ?_, ?_, ?_⟩⟩⟩
  · refine ⟨s.tick sns, exec_msTick_of_ready sns h, ?_, fun i => ?_, fun n => ?_, ?_, ?_, fun he => ?_, fun he => ?_,
      fun n => ?_⟩
    · rw [tick_of_running sns ha hw hq]
      cases hx : s.link.quiet with
      | left ms => rw [quietLeft_of_left hx]; rfl
      | stopped => rw [quietLeft_of_stopped hx]; rfl
      | untilRollcall => rw [quietLeft_of_untilRollcall hx]; rfl
    · rw [tick_box sns ha hw hq]
      exact ⟨mailbox_tick_of_stopped, mailbox_tick_of_running⟩
    · rw [tick_lm sns ha, lamps_tick_getElem]
      split <;> rename_i hp
      case h_1 | h_2 | h_3 | h_4 => exact lamp_tick_of_untimed (by rw [hp]; rfl)
      case h_5 | h_6 | h_7 | h_8 => exact lamp_tick_of_timed (by rw [hp]; rfl)
    · rw [tick_lm sns ha]; rfl
    · rw [tick_lm sns ha]; rfl
    · rw [tick_ks sns ha]
      exact scanner_tick_of_awake h ha he
    · rw [tick_ks sns ha]
      exact scanner_tick_of_stopped (clocked_of_disabled _ he)
    · dsimp only
      rw [tick_input sns ha]
      exact ⟨sample_of_disabled _, sample_of_unprimed _, sample_of_same,
        fun he hp hr => ⟨sample_of_differing he hp hr, sample_of_flip he hp hr⟩⟩
  · rw [exec_msTick_of_ready sns h, tick_of_waking sns hs, endOfStep_of_not_settling _ (by simp [hs])]
  · rw [exec_msTick_of_ready sns h, tick_of_sleep_quiet hs hn, endOfStep_of_not_settling _ (by simp [hs])]
  · rw [exec_msTick_of_ready sns h, tick_of_sleep_wake hs hn hlow, endOfStep_of_not_settling _ (by simp)]
  · exact scanner_tick_of_sleep h hs
  · rintro (he | hw)
    · exact scanner_tick_of_stopped (clocked_of_disabled _ he)
    · exact scanner_tick_of_stopped (by simp [Scanner.clocked, PowerState.awake, hw])

end Sys2Proof.Proofs

/-! SUPPORT. What most operations leave alone: the host port and the power block as a master sees them, the groups' owners, and
the refusal count with its flag. -/

namespace Sys2Proof.Machine

/-! ### What most operations keep -/

/-- The part of the state that the relations of the host port, of the power block, of the locks and of the refusal capture speak
of, but for RLOCK itself. -/
structure Control where
  held : Bool
  csnLow : Bool
  port : HostPort
  state : PowerState
  power : Byte
  request : Option (WakeCause × Byte)
  owner : BitVec 6
  count : Byte
  refused : Bool

/-- These relations' part of the state. -/
def State.control (s : State) : Control :=
  { held := s.held, csnLow := s.pins.csnLow, port := s.hp, state := s.pr.state, power := s.pr.power
    request := s.pr.request, owner := s.own.owner, count := s.rc.count, refused := s.ia.flags0.getLsbD 0 }

/-- `t` has the control part of `s`, and its locks unless they have all been cleared (R55). -/
structure State.Keeps (s t : State) : Prop where
  control : t.control = s.control
  locks : t.own.rlock = s.own.rlock ∨ t.own.rlock = 0#6

theorem State.Keeps.refl (s : State) : s.Keeps s := ⟨rfl, .inl rfl⟩

theorem State.Keeps.trans {s t u : State} (h : s.Keeps t) (h' : t.Keeps u) : s.Keeps u where
  control := h'.control.trans h.control
  locks := by
    rcases h'.locks with h1 | h1
    · rw [h1]; exact h.locks
    · exact .inr h1

theorem State.Keeps.held {s t : State} (h : s.Keeps t) : t.held = s.held := congrArg Control.held h.control
theorem State.Keeps.csnLow {s t : State} (h : s.Keeps t) : t.pins.csnLow = s.pins.csnLow := congrArg Control.csnLow h.control
theorem State.Keeps.hp {s t : State} (h : s.Keeps t) : t.hp = s.hp := congrArg Control.port h.control
theorem State.Keeps.state {s t : State} (h : s.Keeps t) : t.pr.state = s.pr.state := congrArg Control.state h.control
theorem State.Keeps.power {s t : State} (h : s.Keeps t) : t.pr.power = s.pr.power := congrArg Control.power h.control
theorem State.Keeps.request {s t : State} (h : s.Keeps t) : t.pr.request = s.pr.request := congrArg Control.request h.control
theorem State.Keeps.owner {s t : State} (h : s.Keeps t) : t.own.owner = s.own.owner := congrArg Control.owner h.control
theorem State.Keeps.count {s t : State} (h : s.Keeps t) : t.rc.count = s.rc.count := congrArg Control.count h.control
theorem State.Keeps.refused {s t : State} (h : s.Keeps t) : t.ia.flags0.getLsbD 0 = s.ia.flags0.getLsbD 0 :=
  congrArg Control.refused h.control
theorem State.Keeps.awake {s t : State} (h : s.Keeps t) : t.awake = s.awake := congrArg PowerState.awake h.state

/-- Where each branch keeps the control part, so does a choice between them. -/
theorem State.Keeps.ite {s t u : State} {p : Prop} [Decidable p] (h : s.Keeps t) (h' : s.Keeps u) :
    s.Keeps (if p then t else u) := by split <;> assumption

section
variable {s t : State}

/-- Setting event flags of IFLAGS0 other than REFUSED keeps them. -/
theorem raise0_keeps {m : Byte} (hm : m.getLsbD 0 = false) (h : s.Keeps t) : s.Keeps (t.raise0 m) :=
  h.trans ⟨by simp only [State.control, raise0_flags0, BitVec.getLsbD_or, hm, Bool.or_false]; rfl, .inl rfl⟩

theorem updCopies_keeps (m : Master) (f : Copies → Copies) (h : s.Keeps t) : s.Keeps (t.updCopies m f) := by
  cases m <;> exact h.trans ⟨rfl, .inl rfl⟩

theorem recordAll_keeps (es : List Event) (h : s.Keeps t) : s.Keeps (t.recordAll es) := by
  rw [recordAll_eq]; exact h.trans ⟨rfl, .inl rfl⟩

theorem forcedRelease_keeps (h : s.Keeps t) : s.Keeps t.forcedRelease := by
  rw [forcedRelease_eq]; exact h.trans ⟨rfl, .inl rfl⟩

theorem returnToSource_keeps (h : s.Keeps t) : s.Keeps t.returnToSource := by
  rw [returnToSource_eq]; exact h.trans ⟨rfl, .inl rfl⟩

/-! ### Link states and replies -/

theorem abandonReply_keeps (h : s.Keeps t) : s.Keeps t.abandonReply :=
  raise0_keeps (by decide) (h.trans ⟨rfl, .inl rfl⟩)

theorem cancelPending_keeps (h : s.Keeps t) : s.Keeps t.cancelPending := (abandonReply_keeps h).ite h

theorem startReply_keeps (h : s.Keeps t) : s.Keeps t.startReply := by
  unfold State.startReply; split <;> exact h.trans ⟨rfl, .inl rfl⟩

theorem loseHead_keeps (h : s.Keeps t) : s.Keeps t.loseHead :=
  raise0_keeps (by decide) ((returnToSource_keeps h).trans ⟨rfl, .inr rfl⟩)

theorem enableLink_keeps (h : s.Keeps t) : s.Keeps t.enableLink :=
  raise0_keeps (by decide) (h.trans ⟨rfl, .inl rfl⟩)

theorem disableLink_keeps (h : s.Keeps t) : s.Keeps t.disableLink :=
  have h1 : s.Keeps { t with link.tx := .idle, link.rx := Receiver.awaiting } := h.trans ⟨rfl, .inl rfl⟩
  raise0_keeps (by decide) ((returnToSource_keeps h1).trans ⟨rfl, .inr rfl⟩)

theorem enterJoined_keeps (h : s.Keeps t) : s.Keeps t.enterJoined :=
  raise0_keeps (by decide) (h.trans ⟨rfl, .inl rfl⟩)

theorem join_keeps (h : s.Keeps t) : s.Keeps t.join :=
  (enterJoined_keeps (returnToSource_keeps h)).ite (enterJoined_keeps h)

theorem joinAt_keeps (addr : BitVec 5) (h : s.Keeps t) : s.Keeps (t.joinAt addr) :=
  enterJoined_keeps ((returnToSource_keeps h).trans ⟨rfl, .inl rfl⟩)

theorem unassign_keeps (h : s.Keeps t) : s.Keeps t.unassign :=
  raise0_keeps (by decide) ((returnToSource_keeps h).trans ⟨rfl, .inr rfl⟩)

theorem clash_keeps (h : s.Keeps t) : s.Keeps t.clash :=
  raise0_keeps (by decide) (raise0_keeps (by decide) ((returnToSource_keeps h).trans ⟨rfl, .inr rfl⟩))

theorem hush_keeps (d : Half) (h : s.Keeps t) : s.Keeps (t.hush d) := by
  unfold State.hush
  split
  · exact raise0_keeps (by decide) ((returnToSource_keeps h).trans ⟨rfl, .inl rfl⟩)
  all_goals exact h.trans ⟨rfl, .inl rfl⟩

theorem beacon_keeps (flags : Byte) (time : BitVec 32) (h : s.Keeps t) : s.Keeps (t.beacon flags time) := by
  unfold State.beacon; split <;> exact h.trans ⟨rfl, .inl rfl⟩

theorem reply_keeps (kind : FrameKind) (tn : BitVec 3) (front back : List Byte) (h : s.Keeps t) :
    s.Keeps (t.reply kind tn front back) := h.trans ⟨rfl, .inl rfl⟩

theorem replyPoll_keeps (h : s.Keeps t) : s.Keeps t.replyPoll := by
  unfold State.replyPoll; split <;> exact reply_keeps _ _ _ _ h

/-! ### The tick and the scan -/

theorem tickWatchdog_keeps (h : s.Keeps t) : s.Keeps t.tickWatchdog :=
  (loseHead_keeps h).ite (.ite (h.trans ⟨rfl, .inl rfl⟩) h)

theorem tickQuiet_keeps (h : s.Keeps t) : s.Keeps t.tickQuiet := by
  unfold State.tickQuiet
  split
  · exact raise0_keeps (by decide) (h.trans ⟨rfl, .inl rfl⟩)
  · split
    · exact .ite (h.trans ⟨rfl, .inl rfl⟩) h
    · exact h
    · exact h

theorem tickRefresh_keeps (h : s.Keeps t) : s.Keeps t.tickRefresh := by
  have h1 : s.Keeps { t with ob.boxes := tabulate fun i => t.ob.boxes[i].tick } := h.trans ⟨rfl, .inl rfl⟩
  exact .ite (.ite (raise0_keeps (by decide) h1) h1) h

theorem tickLamps_keeps (h : s.Keeps t) : s.Keeps t.tickLamps :=
  .ite (recordAll_keeps _ (h.trans ⟨rfl, .inl rfl⟩)) h

/-- The positions of a tick before the sense inputs. -/
theorem tickBeforeSense_keeps (h : s.Keeps t) :
    s.Keeps t.tickTime.tickWatchdog.tickQuiet.tickRefresh.tickLamps.tickScan :=
  have h0 : s.Keeps t.tickTime := h.trans ⟨rfl, .inl rfl⟩
  (tickLamps_keeps (tickRefresh_keeps (tickQuiet_keeps (tickWatchdog_keeps h0)))).trans ⟨rfl, .inl rfl⟩

theorem processScan_keeps (keys : BitVec 48) (h : s.Keeps t) : s.Keeps (t.processScan keys) := by
  unfold State.processScan
  rcases t.ks.scan keys t.ks.clock with ⟨ks, es⟩
  exact (recordAll_keeps es h).trans ⟨rfl, .inl rfl⟩

/-! ### POLL, DELIVER and PEEK -/

theorem acknowledge_keeps (f : InFlight) (h : s.Keeps t) : s.Keeps (t.acknowledge f) := by
  unfold State.acknowledge
  split
  · exact (raise0_keeps (m := mbDoneFlag) (by decide) (h.trans ⟨rfl, .inl rfl⟩)).trans ⟨rfl, .inl rfl⟩
  · exact h.trans ⟨rfl, .inl rfl⟩

theorem withdraw_keeps (f : InFlight) (h : s.Keeps t) : s.Keeps (t.withdraw f) := by
  unfold State.withdraw; split <;> exact h.trans ⟨rfl, .inl rfl⟩

theorem dropItem_keeps (f : InFlight) (h : s.Keeps t) : s.Keeps (t.dropItem f) := by
  unfold State.dropItem
  split
  · exact (raise0_keeps (m := mbDropFlag) (by decide) (h.trans ⟨rfl, .inl rfl⟩)).trans ⟨rfl, .inl rfl⟩
  · exact h.trans ⟨rfl, .inl rfl⟩

theorem composeItem_keeps (i : Item) (h : s.Keeps t) : s.Keeps (t.composeItem i) := by
  unfold State.composeItem; split <;> exact h.trans ⟨rfl, .inl rfl⟩

theorem pollAcknowledge_keeps (av : Bool) (tn : BitVec 3) (h : s.Keeps t) : s.Keeps (t.pollAcknowledge av tn) := by
  unfold State.pollAcknowledge
  split
  · exact h
  · exact (acknowledge_keeps _ h).ite h

theorem pollUnacknowledged_keeps (h : s.Keeps t) : s.Keeps t.pollUnacknowledged := by
  unfold State.pollUnacknowledged
  split
  · exact h
  · exact (withdraw_keeps _ h).ite (.ite (h.trans ⟨rfl, .inl rfl⟩) (dropItem_keeps _ h))

theorem pollSelect_keeps (h : s.Keeps t) : s.Keeps t.pollSelect := by
  unfold State.pollSelect
  split
  · exact h
  · split
    · exact h
    · exact composeItem_keeps _ h

theorem servePoll_keeps (av : Bool) (tn : BitVec 3) (h : s.Keeps t) : s.Keeps (t.servePoll av tn) :=
  replyPoll_keeps (pollSelect_keeps (pollUnacknowledged_keeps (pollAcknowledge_keeps av tn h)))

theorem applyDelivery_keeps (chan : Byte) (payload : List Byte) (v : Verdict) (stores broadcast : Bool) (h : s.Keeps t) :
    s.Keeps (t.applyDelivery chan payload v stores broadcast) := by
  rw [applyDelivery_eq]
  cases v.notify <;> exact h.trans ⟨rfl, .inl rfl⟩

theorem deliver_keeps (tn : BitVec 3) (chan : Byte) (payload : List Byte) (h : s.Keeps t) :
    s.Keeps (t.deliver tn chan payload).1 := by
  unfold State.deliver
  split
  · exact h
  split
  · exact h
  split
  · exact h
  dsimp only
  split
  · exact h
  · exact (applyDelivery_keeps _ _ _ _ _ h).trans ⟨rfl, .inl rfl⟩

theorem serveDeliver_keeps (tn : BitVec 3) (chan : Byte) (payload : List Byte) (h : s.Keeps t) :
    s.Keeps (t.serveDeliver tn chan payload) := reply_keeps _ _ _ _ (deliver_keeps tn chan payload h)

theorem deliverAll_keeps (chan : Byte) (payload : List Byte) (h : s.Keeps t) : s.Keeps (t.deliverAll chan payload) := by
  have h1 : s.Keeps (State.raise1 iqDropFlag { t with ib.drops := counted t.ib.drops }) := h.trans ⟨rfl, .inl rfl⟩
  exact h.ite (.ite (applyDelivery_keeps _ _ _ _ _ h1) (applyDelivery_keeps _ _ _ _ _ h))

theorem captureSpan_keeps (addr : Byte) (n : Nat) (h : s.Keeps t) : s.Keeps (t.captureSpan addr n) := by
  have hf : ∀ (fs : List SnapField) (u : State), s.Keeps u →
      s.Keeps (fs.foldl (fun acc f => acc.install .head f (t.content .head f)) u) := by
    intro fs
    induction fs with
    | nil => exact fun _ hu => hu
    | cons f rest ih => exact fun u hu => ih _ (updCopies_keeps _ _ hu)
  exact hf _ t h

theorem servePeek_keeps (addr count : Byte) (h : s.Keeps t) : s.Keeps (t.servePeek addr count) :=
  (reply_keeps _ _ _ _ h).ite (reply_keeps _ _ _ _ (captureSpan_keeps addr count.toNat h))

/-! ### Register writes -/

theorem writeLinkCtl_keeps (v : Byte) (h : s.Keeps t) : s.Keeps (t.writeLinkCtl v) :=
  have h1 : s.Keeps { t with link.rate := v.extractLsb' 1 2, link.en := v.getLsbD 0 } := h.trans ⟨rfl, .inl rfl⟩
  (enableLink_keeps h1).ite ((disableLink_keeps h1).ite h1)

theorem writeScanCtl_keeps (v : Byte) (h : s.Keeps t) : s.Keeps (t.writeScanCtl v) :=
  have h1 : s.Keeps { t with ks.en := v.getLsbD 0, ks.sleepWake := v.getLsbD 1 } := h.trans ⟨rfl, .inl rfl⟩
  .ite (h.trans ⟨rfl, .inl rfl⟩) ((forcedRelease_keeps h1).ite h1)

theorem writeLocalTime_keeps (m : Master) (i : Fin 4) (v : Byte) (h : s.Keeps t) : s.Keeps (t.writeLocalTime m i v) :=
  have h1 : s.Keeps (t.updCopies m fun c => { c with time := c.time.set i v }) := updCopies_keeps _ _ h
  .ite (h1.trans ⟨rfl, .inl rfl⟩) h1

/-- A write of any register but POWER, RESTART, OWNER, RLOCK and IFLAGS0 keeps the control part. -/
theorem applyWrite_keeps (m : Master) {r : Reg} (v : Byte) (h : s.Keeps t)
    (hr : r ∉ [.power, .restart, .owner, .rlock, .iflags0]) : s.Keeps (t.applyWrite m r v) := by
  cases r
  case power | restart | owner | rlock | iflags0 => simp at hr
  case linkCtl => exact writeLinkCtl_keeps v h
  case scanCtl => exact writeScanCtl_keeps v h
  case localTime i => exact writeLocalTime_keeps m i v h
  case mbCmd => exact .ite (h.trans ⟨rfl, .inl rfl⟩) (.ite (h.trans ⟨rfl, .inl rfl⟩) (h.trans ⟨rfl, .inl rfl⟩))
  all_goals cases m <;> exact h.trans ⟨rfl, .inl rfl⟩

end

end Sys2Proof.Machine

/-! SUPPORT. Relations that a completed frame, a tick and a scan keep, by what these are made of: operations that keep the control
part, writes by the head that pass the access check, and wake requests. -/

namespace Sys2Proof.Machine

/-! ### What is needed of a relation -/

/-- `P` is kept by every operation that keeps the control part, by a write of a value in range by the head, and by a wake
request. -/
structure Stable (P : State → Prop) : Prop where
  keeps : ∀ {s t : State}, P s → s.Keeps t → P t
  headWrite : ∀ (r : Reg) (v : Byte) (s : State), s.awake = true → outOfRange r v = false → P s →
    P (s.applyWrite .head r v)
  wake : ∀ (c : WakeCause) (detail : Byte) (s : State), P s → P (s.requestWake c detail)

/-! ### POKE -/

/-- A write that the access check lets pass is in range (R19). -/
theorem inRange_of_check {s : State} {m : Master} {r : Reg} {v : Byte} (h : s.check m r v = none) :
    outOfRange r v = false := by
  by_contra hr
  rw [Bool.not_eq_false] at hr
  revert h
  unfold State.check
  rw [hr]
  repeat' split
  all_goals simp_all

/-- A write of POWER in RUN, DOZE or SETTLING: the power state follows the request (R186). -/
theorem requestPower_of_awake (v : Byte) {s : State} (h : s.awake = true) : s.requestPower v = { s with
    pr.power := v, pr.state := if v = 0#8 then .run else if v = 1#8 then .doze else .settling } := by
  revert h
  unfold State.awake State.requestPower
  cases s.pr.state <;> simp [PowerState.awake]

theorem requestPower_awake (v : Byte) {s : State} (h : s.awake = true) : (s.requestPower v).awake = true := by
  rw [requestPower_of_awake v h]
  show PowerState.awake (if v = 0#8 then .run else if v = 1#8 then .doze else .settling) = true
  repeat' split
  all_goals rfl

/-- No write ends RUN, DOZE and SETTLING: SLEEP is entered at the end of a step alone (R187). -/
theorem applyWrite_awake (m : Master) (r : Reg) (v : Byte) {s : State} (h : s.awake = true) :
    (s.applyWrite m r v).awake = true := by
  by_cases hr : r ∈ [.power, .restart, .owner, .rlock, .iflags0]
  · simp only [List.mem_cons, List.not_mem_nil, or_false] at hr
    rcases hr with rfl | rfl | rfl | rfl | rfl
    · exact requestPower_awake v h
    · cases m with
      | host => rfl
      | head => exact h
    · exact h
    · exact h
    · simp only [State.applyWrite, State.clearFlags0]
      split <;> exact h
  · rw [(applyWrite_keeps m v (.refl s) hr).awake, h]

/-- No write but a restart changes the host port. -/
theorem applyWrite_hp (m : Master) {r : Reg} (v : Byte) (s : State) (hr : r ≠ .restart) :
    (s.applyWrite m r v).hp = s.hp := by
  by_cases hs : r ∈ [.power, .restart, .owner, .rlock, .iflags0]
  · simp only [List.mem_cons, List.not_mem_nil, or_false] at hs
    rcases hs with rfl | rfl | rfl | rfl | rfl
    · rfl
    · exact absurd rfl hr
    · rfl
    · rfl
    · simp only [State.applyWrite, State.clearFlags0]
      split <;> rfl
  · exact (applyWrite_keeps m v (.refl s) hs).hp

/-- The bytes of a POKE that was not refused take effect one after another. -/
theorem Stable.writeSpan {P : State → Prop} (hP : Stable P) (data : List Byte) (addr : Byte) (judge s : State)
    (hj : judge.firstRefusal addr data = none) (ha : s.awake = true) (hs : P s) : P (s.writeSpan addr data) := by
  induction data generalizing addr judge s with
  | nil => exact hs
  | cons v rest ih =>
    rw [State.firstRefusal] at hj
    cases hc : judge.check .head (regAt addr) v with
    | some c => simp [hc] at hj
    | none =>
      rw [hc] at hj
      exact ih _ _ _ hj (applyWrite_awake .head _ v ha) (hP.headWrite _ v s ha (inRange_of_check hc) hs)

theorem Stable.servePoke {P : State → Prop} (hP : Stable P) (addr : Byte) (data : List Byte) {s : State}
    (ha : s.awake = true) (hs : P s) : P (s.servePoke addr data) := by
  unfold State.servePoke
  split
  · exact hP.keeps hs (reply_keeps _ _ _ _ (.refl s))
  split
  · exact hP.keeps hs (reply_keeps _ _ _ _ (.refl s))
  · rename_i hr
    have hw := hP.writeSpan data addr s s hr ha hs
    dsimp only
    split
    · exact hP.keeps hw (reply_keeps _ _ _ _ (.refl _))
    · exact hw

/-! ### Completed frames -/

theorem serveRollcallBySerial_keeps (body : List Byte) (s : State) : s.Keeps (s.serveRollcallBySerial body) :=
  .ite (.ite (unassign_keeps (.refl s)) (reply_keeps _ _ _ _ (joinAt_keeps _ (.refl s)))) (.refl s)

/-- A dispatched frame that is no POKE keeps the control part. -/
theorem dispatch_keeps (f : Frame) (s : State) (h : f.kind ≠ .poke) : s.Keeps (s.dispatch f) := by
  have hs := State.Keeps.refl s
  unfold State.dispatch
  cases hk : f.kind
  case poke => exact absurd hk h
  case rollcall => exact .ite (.ite (reply_keeps _ _ _ _ (join_keeps hs)) hs) (serveRollcallBySerial_keeps _ s)
  case poll => exact .ite (servePoll_keeps _ _ hs) hs
  case deliver => exact .ite (.ite (deliverAll_keeps _ _ hs) hs) (.ite (serveDeliver_keeps _ _ _ hs) hs)
  case peek => exact .ite (servePeek_keeps _ _ hs) hs
  case hush => exact hush_keeps _ hs
  case beacon => exact beacon_keeps _ _ hs
  all_goals exact hs

theorem Stable.dispatch {P : State → Prop} (hP : Stable P) (f : Frame) {s : State} (ha : s.awake = true) (hs : P s) :
    P (s.dispatch f) := by
  by_cases hk : f.kind = .poke
  · unfold State.dispatch
    rw [hk]
    dsimp only
    split
    · exact hP.servePoke _ _ ha hs
    · exact hs
  · exact hP.keeps hs (dispatch_keeps f s hk)

theorem Stable.processFrame {P : State → Prop} (hP : Stable P) (c : FrameClass) {s : State} (ha : s.awake = true)
    (hs : P s) : P (s.processFrame c) := by
  have hr := State.Keeps.refl s
  cases c with
  | valid f =>
    unfold State.processFrame
    dsimp only
    split
    · exact hP.dispatch f (s := s.hearHead) ha (hP.keeps hs ⟨rfl, .inl rfl⟩)
    · exact hP.keeps hs (.ite (clash_keeps hr) hr)
  | misdirected => exact hP.keeps hs ⟨rfl, .inl rfl⟩
  | badFormat | badCrc | unknownKind => exact hP.keeps hs (raise0_keeps (by decide) (hr.trans ⟨rfl, .inl rfl⟩))

/-- A completed frame keeps a stable relation. -/
theorem Stable.completeFrame {P : State → Prop} (hP : Stable P) (bytes : List RxByte) {s : State} (hs : P s) :
    P (s.completeFrame bytes) := by
  have h1 : P { s with link.rx := Receiver.completed } := hP.keeps hs ⟨rfl, .inl rfl⟩
  unfold State.completeFrame
  dsimp only
  split
  · split
    · exact hP.wake _ _ _ h1
    · exact h1
  · exact h1
  all_goals
    rename_i hp
    exact hP.processFrame _ (by simp [State.awake, hp, PowerState.awake]) h1

/-! ### The tick and the scan -/

/-- A tick keeps a stable relation. -/
theorem Stable.tick {P : State → Prop} (hP : Stable P) (sns : BitVec 4) {s : State} (hs : P s) : P (s.tick sns) := by
  have h1 := hP.keeps hs (tickBeforeSense_keeps (.refl s))
  rw [State.tick]
  generalize s.tickTime.tickWatchdog.tickQuiet.tickRefresh.tickLamps.tickScan = t at h1
  unfold State.tickSense
  split
  case h_4 =>
    split
    · exact hP.wake _ _ _ h1
    · exact h1
  case h_5 => exact h1
  all_goals exact hP.keeps h1 (recordAll_keeps _ ⟨rfl, .inl rfl⟩)

/-- A scan completion keeps a stable relation. -/
theorem Stable.completeScan {P : State → Prop} (hP : Stable P) (keys : BitVec 48) {s : State} (hs : P s) :
    P (s.completeScan keys) := by
  unfold State.completeScan
  split
  case h_4 =>
    have h1 : P { s with ks.clock := 0, ks.due := false, pins.switches := keys } := hP.keeps hs ⟨rfl, .inl rfl⟩
    unfold State.wakeScan
    dsimp only
    split
    · exact hP.wake _ _ _ h1
    · exact h1
  case h_5 => exact hs
  all_goals exact hP.keeps hs (processScan_keeps keys (.refl s))

end Sys2Proof.Machine

/-! SUPPORT. The host port's operations, one equation per case, and what they leave as it was. -/

namespace Sys2Proof.Machine

/-! ### The output byte and the address pointer (R4, R5, R9) -/

theorem loadOut_of_ignore {s : State} (h : s.hp.phase = .ignore) : s.loadOut = { s with hp.out := 0xFF#8 } := by
  rw [State.loadOut, h]

/-- Outside IGNORE and READ_DATA the next byte shifted is the STATUS byte. -/
theorem loadOut_of_status {s : State} (h : s.hp.phase ≠ .ignore) (h' : s.hp.phase ≠ .readData) :
    s.loadOut = { s with hp.out := s.statusByte } := by
  rw [State.loadOut]
  split <;> simp_all

theorem loadOut_eq (s : State) : s.loadOut = { s with hp.out := s.loadOut.hp.out } := by
  unfold State.loadOut
  split <;> rfl

theorem advance_of_last {s : State} (h : s.hp.pointer = 0xFF#8) : s.advance = { s with hp.phase := .ignore } := if_pos h

theorem advance_of_not_last {s : State} (h : s.hp.pointer ≠ 0xFF#8) :
    s.advance = { s with hp.pointer := s.hp.pointer + 1 } := if_neg h

/-! ### Fetches and captures (R7, R15) -/

theorem fetch_of_capture {s : State} {f : SnapField} (h : captureAt s.hp.pointer = some f) :
    s.fetch = { s with
      hp.capture := some { field := f, bytes := s.content .host f }, hp.out := byteAt (s.content .host f) 0 } := by
  rw [State.fetch, h]

theorem fetch_of_plain {s : State} (h : captureAt s.hp.pointer = none) :
    s.fetch = { s with hp.out := s.readReg .host (regAt s.hp.pointer) } := by rw [State.fetch, h]

theorem fetch_eq (s : State) : s.fetch = { s with hp.capture := s.fetch.hp.capture, hp.out := s.fetch.hp.out } := by
  cases h : captureAt s.hp.pointer with
  | none => rw [fetch_of_plain h]
  | some f => rw [fetch_of_capture h]

/-- Settling a capture changes the host's snapshots and the pending capture alone. -/
theorem settleCapture_eq (s : State) :
    s.settleCapture = { s with host.snap := s.settleCapture.host.snap, hp.capture := none } := by
  unfold State.settleCapture
  split
  · rfl
  · rename_i h
    rw [← h]

/-! ### Refused writes (R21) -/

theorem captureRefusal_eq (addr : Byte) (c : Cause) (s : State) : s.captureRefusal addr c = { s with
    rc := {
      addr := if s.ia.flags0.getLsbD 0 then s.rc.addr else addr
      cause := if s.ia.flags0.getLsbD 0 then s.rc.cause else c.code
      count := counted s.rc.count }
    ia.flags0 := s.ia.flags0 ||| refusedFlag } := by
  unfold State.captureRefusal
  cases s.ia.flags0.getLsbD 0 <;> rfl

/-! ### Wake requests (R189) -/

theorem requestWake_of_sleep (c : WakeCause) (detail : Byte) {s : State} (h : s.pr.state = .sleep) :
    s.requestWake c detail = { s with
      pr := { s.pr with state := .waking, request := some (c, detail), wakeTicks := 0 }, ks.clock := 0, ks.due := false } :=
  if_pos h

theorem requestWake_of_not_sleep (c : WakeCause) (detail : Byte) {s : State} (h : s.pr.state ≠ .sleep) :
    s.requestWake c detail = s := if_neg h

/-- A wake request changes the power block and the scan clock alone. -/
theorem requestWake_eq (c : WakeCause) (detail : Byte) (s : State) :
    s.requestWake c detail = { s with pr := (s.requestWake c detail).pr, ks := (s.requestWake c detail).ks } := by
  by_cases h : s.pr.state = .sleep
  · rw [requestWake_of_sleep c detail h]
  · rw [requestWake_of_not_sleep c detail h]

/-! ### The command byte (R5) -/

/-- The command and the phase that the command byte `b` leads to: STATUS and WAKE are admitted in every power state, WRITE and
READ in RUN, DOZE and SETTLING. -/
def commandOf (awake : Bool) (b : Byte) : HostCommand × Phase :=
  if b = 0xA0#8 then (if awake then (.write, .awaitAddress) else (.unassigned, .ignore))
  else if b = 0xA1#8 then (if awake then (.read, .awaitAddress) else (.unassigned, .ignore))
  else if b = 0xA8#8 then (.status, .statusStream)
  else if b = 0xAF#8 then (.wake, .ignore)
  else (.unassigned, .ignore)

/-- A command byte sets the transaction's command and phase; WAKE requests a wake. -/
theorem commandByte_eq (b : Byte) (s : State) : s.commandByte b =
    State.loadOut (if b = 0xAF#8
      then (s.setCommand (commandOf s.awake b).1 (commandOf s.awake b).2).requestWake .host 0
      else s.setCommand (commandOf s.awake b).1 (commandOf s.awake b).2) := by
  unfold State.commandByte commandOf
  congr 1
  by_cases h0 : b = 0xA0#8
  · subst h0; cases s.awake <;> rfl
  by_cases h1 : b = 0xA1#8
  · subst h1; cases s.awake <;> rfl
  by_cases h2 : b = 0xA8#8
  · subst h2; rfl
  by_cases h3 : b = 0xAF#8
  · subst h3; rfl
  simp [h0, h1, h2, h3]

end Sys2Proof.Machine

/-! SUPPORT. The locks and the refusal capture: every event keeps the locks owned and the refusals counted. -/

namespace Sys2Proof.Machine

/-- RLOCK holds no 1 for a group of the host, and REFCOUNT is 0 exactly when REFUSED is clear (R22, R55). -/
def State.Booked (s : State) : Prop := s.locksOwned ∧ s.refusalsCounted

theorem State.Booked.congr {s t : State} (h : s.Booked) (ho : t.own = s.own) (hc : t.rc = s.rc)
    (hf : t.ia.flags0 = s.ia.flags0) : t.Booked := by
  unfold State.Booked State.locksOwned State.refusalsCounted at *
  rw [ho, hc, hf]
  exact h

theorem State.Booked.keeps {s t : State} (h : s.Booked) (hk : s.Keeps t) : t.Booked := by
  obtain ⟨hl, hc⟩ := h
  refine ⟨?_, ?_⟩
  · rcases hk.locks with hr | hr
    · rw [State.locksOwned, hr, hk.owner]; exact hl
    · simp [State.locksOwned, hr]
  · rw [State.refusalsCounted, hk.count, hk.refused]; exact hc

/-- With no lock, no refusal counted and REFUSED clear, as after every reset. -/
theorem booked_of_cleared {s : State} (hl : s.own.rlock = 0#6) (hc : s.rc.count = 0#8) (hf : s.ia.flags0 = 0#8) :
    s.Booked := by
  simp [State.Booked, State.locksOwned, State.refusalsCounted, hl, hc, hf]

theorem softRestart_booked (s : State) : s.softRestart.Booked := booked_of_cleared rfl rfl rfl

theorem powerOnReset_booked (p : Straps) (s : State) : (s.powerOnReset p).Booked := booked_of_cleared rfl rfl rfl

theorem counted_ne_zero (c : Byte) : counted c ≠ 0#8 := by revert c; decide

/-- A bit is not in what is left by clearing the bits that it was not in (R53, R55). -/
theorem and_andNot_of_and {x y : BitVec 6} : x &&& y &&& ~~~y = 0#6 := by
  rw [BitVec.and_assoc]; simp

/-- A write by either master leaves the locks owned and the refusals counted. -/
theorem State.Booked.applyWrite {s : State} (h : s.Booked) (m : Master) (r : Reg) (v : Byte) :
    (s.applyWrite m r v).Booked := by
  by_cases hr : r ∈ [.power, .restart, .owner, .rlock, .iflags0]
  · simp only [List.mem_cons, List.not_mem_nil, or_false] at hr
    rcases hr with rfl | rfl | rfl | rfl | rfl
    · exact h.congr rfl rfl rfl
    · cases m with
      | host => exact softRestart_booked s
      | head => exact h
    · exact ⟨and_andNot_of_and, h.2⟩
    · exact ⟨and_andNot_of_and, h.2⟩
    · refine ⟨?_, ?_⟩
      · simp only [State.applyWrite, State.clearFlags0]
        split <;> exact h.1
      · have hc := h.2
        simp only [State.applyWrite, State.clearFlags0, State.refusalsCounted] at hc ⊢
        cases hv : v.getLsbD 0
        · simp only [Bool.false_eq_true, if_false, hc, BitVec.getLsbD_and, BitVec.getLsbD_not, hv]
          simp
        · simp only [if_true, BitVec.getLsbD_and, BitVec.getLsbD_not, hv]
          simp
  · exact h.keeps (applyWrite_keeps m v (.refl s) hr)

theorem State.Booked.requestWake {s : State} (h : s.Booked) (c : WakeCause) (detail : Byte) :
    (s.requestWake c detail).Booked := by
  rw [requestWake_eq]; exact h.congr rfl rfl rfl

theorem stable_booked : Stable State.Booked where
  keeps := State.Booked.keeps
  headWrite r v _ _ _ h := h.applyWrite .head r v
  wake c detail _ h := h.requestWake c detail

/-- A refused write sets REFUSED and counts the refusal (R21). -/
theorem State.Booked.captureRefusal {s : State} (h : s.Booked) (addr : Byte) (c : Cause) :
    (s.captureRefusal addr c).Booked := by
  rw [captureRefusal_eq]
  exact ⟨h.1, by simp [State.refusalsCounted, counted_ne_zero, refusedFlag]⟩

theorem State.Booked.loadOut {s : State} (h : s.Booked) : s.loadOut.Booked := by
  rw [loadOut_eq]; exact h.congr rfl rfl rfl

theorem State.Booked.advance {s : State} (h : s.Booked) : s.advance.Booked := by
  unfold State.advance; split <;> exact h.congr rfl rfl rfl

theorem State.Booked.fetch {s : State} (h : s.Booked) : s.fetch.Booked := by
  rw [fetch_eq]; exact h.congr rfl rfl rfl

theorem State.Booked.hostWriteByte {s : State} (h : s.Booked) (v : Byte) : (s.hostWriteByte v).Booked := by
  unfold State.hostWriteByte
  dsimp only
  split
  · exact (h.captureRefusal _ _).advance.loadOut
  · split
    · exact h.applyWrite ..
    · exact (h.applyWrite ..).advance.loadOut

theorem State.Booked.readByte {s : State} (h : s.Booked) : s.readByte.Booked := by
  have h1 : s.settleCapture.advance.Booked := by
    rw [settleCapture_eq]; exact State.Booked.advance (h.congr rfl rfl rfl)
  unfold State.readByte
  dsimp only
  split
  · exact h1.fetch
  · exact h1.loadOut

theorem State.Booked.commandByte {s : State} (h : s.Booked) (b : Byte) : (s.commandByte b).Booked := by
  rw [commandByte_eq]
  have h1 : (s.setCommand (commandOf s.awake b).1 (commandOf s.awake b).2).Booked := h.congr rfl rfl rfl
  refine State.Booked.loadOut ?_
  split
  · exact h1.requestWake _ _
  · exact h1

/-- Every event keeps the locks owned and the refusals counted. -/
theorem IsEvent.booked {due : State → Bool} {f : State → State} (e : IsEvent due f) {s : State} (h : s.Booked) :
    (f s).Booked := by
  have hk := State.Keeps.refl s
  cases e with
  | restart => exact softRestart_booked s
  | wakeEnd => rw [finishWake_eq]; exact h.congr rfl rfl rfl
  | scan _ keys => exact stable_booked.completeScan keys h
  | tick _ sns => exact stable_booked.tick sns h
  | sleepEntry => rw [enterSleep_eq]; exact h.congr rfl rfl rfl
  | frame bytes => exact stable_booked.completeFrame (bytes s) h
  | frameStart | discardedByte => exact h.keeps ((cancelPending_keeps hk).trans ⟨rfl, .inl rfl⟩)
  | replyStart => exact h.keeps (startReply_keeps hk)
  | replyAbort | replyCancel => exact h.keeps ((abandonReply_keeps hk).trans ⟨rfl, .inl rfl⟩)
  | commandByte b => exact h.commandByte b
  | addressByte b => exact State.Booked.loadOut (h.congr rfl rfl rfl)
  | turnaround => exact State.Booked.fetch (h.congr rfl rfl rfl)
  | readData => exact h.readByte
  | statusStream | ignoredByte => exact h.loadOut
  | hostWrite _ v => exact h.hostWriteByte v
  | hunting | replyEnd | csnRise | csnFall | csnWhileHeld => exact h.congr rfl rfl rfl

theorem State.Reaches.booked {s t : State} (hr : s.Reaches t) (h : s.Booked) : t.Booked := by
  induction hr with
  | refl => exact h
  | tail _ hstep ih =>
    obtain ⟨due, f, e, -, rfl⟩ := hstep
    exact e.booked ih

/-! ### Commands of resets -/

theorem resetUnlessHeld_booked (p : Straps) {s : State} (h : s.Booked) : (s.resetUnlessHeld p).Booked := by
  unfold State.resetUnlessHeld
  split
  · exact h
  · exact powerOnReset_booked p s

/-- Every command keeps the locks owned and the refusals counted. -/
theorem exec_booked {c : Instr} {s t : State} (h : s.Booked) (he : exec c s = .next t) : t.Booked := by
  cases hr : ofReset c with
  | false =>
    obtain ⟨u, hu, hreach⟩ := exec_reaches c s hr
    obtain rfl : u = t := by simpa [hu] using he
    exact hreach.booked h
  | true =>
    match c, hr with
    | .powerOnReset p, _ | .pinReset p, _ =>
      cases he
      exact resetUnlessHeld_booked p (h.congr rfl rfl rfl)
    | .resetHeldLow, _ | .supplyBelowRange, _ =>
      cases he
      exact h.congr rfl rfl rfl

/-- A relation that every command keeps, and that says nothing of the queue, is kept by every step. -/
theorem step_keeps {P : State → Prop} (hq : ∀ (s : State) (q : List Instr), P s → P { s with pending := q })
    (hc : ∀ (c : Instr) (s t : State), P s → exec c s = .next t → P t) {s t : State} (hs : P s) (h : step s = .next t) :
    P t := by
  unfold step at h
  split at h
  · cases h; exact hs
  · exact hc _ _ _ (hq _ _ hs) h

end Sys2Proof.Machine

namespace Sys2Proof.Proofs

open Sys2Proof.Machine

/-- Settles O53: each event that a step can be made of keeps the two relations together. -/
theorem stepKeepsLocksAndRefusals : Obligations.StepKeepsLocksAndRefusals := fun _ _ hl hr h =>
  step_keeps (P := State.Booked) (fun _ _ hs => hs.congr rfl rfl rfl) (fun _ _ _ => exec_booked) ⟨hl, hr⟩ h

end Sys2Proof.Proofs

/-! SUPPORT. The host port and the power block: every event of a part that is not held in reset keeps their relations. -/

namespace Sys2Proof.Machine

/-! ### The relations by themselves -/

/-- The host port's relations speak of the hold, CSN, the port and the power state alone. -/
theorem State.PortSound.congr {s t : State} (h : s.PortSound) (hh : t.held = s.held)
    (hc : t.pins.csnLow = s.pins.csnLow) (hp : t.hp = s.hp) (ha : t.awake = s.awake) : t.PortSound where
  idle := by rw [hh, hc, hp]; exact h.idle
  asleep := by rw [ha, hp]; exact h.asleep
  address := by rw [hp]; exact h.address
  capture := by rw [hp]; exact h.capture

theorem State.PowerSound.congr {s t : State} (h : s.PowerSound) (hs : t.pr.state = s.pr.state)
    (hp : t.pr.power = s.pr.power) (hr : t.pr.request = s.pr.request) : t.PowerSound where
  run := by rw [hs, hp]; exact h.run
  doze := by rw [hs, hp]; exact h.doze
  sleep := by rw [hs, hp]; exact h.sleep
  request := by rw [hs, hr]; exact h.request

/-- In a phase of a WRITE or a READ the part is in RUN, DOZE or SETTLING. -/
theorem State.PortSound.awake_of_phase {s : State} (h : s.PortSound) (h1 : s.hp.phase ≠ .awaitCommand)
    (h2 : s.hp.phase ≠ .statusStream) (h3 : s.hp.phase ≠ .ignore) : s.awake = true := by
  by_contra ha
  rcases h.asleep (by simpa using ha) with h' | h' | h'
  exacts [h1 h', h2 h', h3 h']

/-- Outside READ_DATA no capture is pending. -/
theorem State.PortSound.no_capture {s : State} (h : s.PortSound) (hp : s.hp.phase ≠ .readData) :
    s.hp.capture = none := by
  by_contra hc
  exact hp (h.capture hc)

/-- After every reset the port waits for a command, or for the rise of CSN (R4). -/
theorem portSound_of_reset {s : State} (h : s.hp = HostPort.afterReset s.pins.csnLow) : s.PortSound where
  idle _ hc := by rw [h, hc]; rfl
  asleep _ := by rw [h]; cases s.pins.csnLow <;> simp [HostPort.afterReset]
  address := by rw [h]; cases s.pins.csnLow <;> simp [HostPort.afterReset]
  capture := by rw [h]; simp [HostPort.afterReset]

/-- In RUN with POWER 0 and no wake under way. -/
theorem powerSound_of_run {s : State} (hs : s.pr.state = .run) (hp : s.pr.power = 0#8) (hr : s.pr.request = none) :
    s.PowerSound := ⟨fun _ => hp, by simp [hs], by simp [hs], by simp [hs, hr]⟩

theorem State.PowerSound.request_none {s : State} (h : s.PowerSound) (hs : s.pr.state ≠ .waking) :
    s.pr.request = none := by
  by_contra hr
  exact hs (h.request.1 hr)

/-! ### A part that runs -/

/-- A part that is not held in reset, with the relations of the host port and of the power block. -/
structure State.DeskSound (s : State) : Prop where
  running : s.held = false
  port : s.PortSound
  power : s.PowerSound

theorem State.DeskSound.keeps {s t : State} (h : s.DeskSound) (hk : s.Keeps t) : t.DeskSound where
  running := hk.held.trans h.running
  port := h.port.congr hk.held hk.csnLow hk.hp hk.awake
  power := h.power.congr hk.state hk.power hk.request

/-- An operation that changes neither the pins but for the switches, nor the power block. -/
theorem State.DeskSound.setPort {s t : State} (h : s.DeskSound) (hpins : t.pins = s.pins) (hpr : t.pr = s.pr)
    (hport : t.PortSound) : t.DeskSound where
  running := by rw [State.held, hpins]; exact h.running
  port := hport
  power := h.power.congr (by rw [hpr]) (by rw [hpr]) (by rw [hpr])

theorem softRestart_desk {s : State} (h : s.held = false) : s.softRestart.DeskSound :=
  ⟨h, portSound_of_reset rfl, powerSound_of_run rfl rfl rfl⟩

/-- A wake request moves a sleeping part to WAKING with its cause recorded (R189). -/
theorem State.DeskSound.requestWake {s : State} (h : s.DeskSound) (c : WakeCause) (detail : Byte) :
    (s.requestWake c detail).DeskSound := by
  by_cases hs : s.pr.state = .sleep
  · rw [requestWake_of_sleep c detail hs]
    exact
      { running := h.running
        port := h.port.congr rfl rfl rfl (awake_of_sleep hs).symm
        power := ⟨nofun, nofun, fun _ => h.power.sleep (.inr (.inl hs)), by simp⟩ }
  · rw [requestWake_of_not_sleep c detail hs]
    exact h

/-- An accepted write of POWER leaves the power state that the request stands for (R186). -/
theorem State.DeskSound.requestPower {s : State} (h : s.DeskSound) (ha : s.awake = true) {v : Byte}
    (hv : outOfRange .power v = false) : (s.requestPower v).DeskSound := by
  have hle : v.toNat ≤ 2 := by simpa [outOfRange] using hv
  have hreq := h.power.request_none (not_waking_of_awake ha)
  have haw := requestPower_awake v ha
  rw [requestPower_of_awake v ha] at haw ⊢
  refine ⟨h.running, h.port.congr rfl rfl rfl (haw.trans ha.symm), ?_⟩
  have hcases : v = 0#8 ∨ v = 1#8 ∨ v = 2#8 := by
    rcases (by omega : v.toNat = 0 ∨ v.toNat = 1 ∨ v.toNat = 2) with h | h | h
    · exact .inl (BitVec.eq_of_toNat_eq h)
    · exact .inr (.inl (BitVec.eq_of_toNat_eq h))
    · exact .inr (.inr (BitVec.eq_of_toNat_eq h))
  rcases hcases with rfl | rfl | rfl
  · exact powerSound_of_run rfl rfl hreq
  · exact ⟨nofun, fun _ => rfl, by simp, by simp [hreq]⟩
  · exact ⟨nofun, nofun, fun _ => rfl, by simp [hreq]⟩

/-- An accepted write by either master in RUN, DOZE or SETTLING. -/
theorem State.DeskSound.applyWrite {s : State} (h : s.DeskSound) (ha : s.awake = true) (m : Master) {r : Reg} {v : Byte}
    (hv : outOfRange r v = false) : (s.applyWrite m r v).DeskSound := by
  by_cases hr : r ∈ [.power, .restart, .owner, .rlock, .iflags0]
  · simp only [List.mem_cons, List.not_mem_nil, or_false] at hr
    rcases hr with rfl | rfl | rfl | rfl | rfl
    · exact h.requestPower ha hv
    · cases m with
      | host => exact softRestart_desk h.running
      | head => exact h.setPort rfl rfl (h.port.congr rfl rfl rfl rfl)
    · exact h.setPort rfl rfl (h.port.congr rfl rfl rfl rfl)
    · exact h.setPort rfl rfl (h.port.congr rfl rfl rfl rfl)
    · simp only [State.applyWrite, State.clearFlags0]
      split <;> exact h.setPort rfl rfl (h.port.congr rfl rfl rfl rfl)
  · exact h.keeps (applyWrite_keeps m v (.refl s) hr)

theorem stable_desk : Stable State.DeskSound where
  keeps := State.DeskSound.keeps
  headWrite _ _ _ ha hv h := h.applyWrite ha .head hv
  wake c detail _ h := h.requestWake c detail

/-! ### SPI bytes -/

theorem inPhase_iff (p : Phase) (s : State) : s.inPhase p = true ↔ s.pins.csnLow = true ∧ s.hp.phase = p := by
  simp [State.inPhase]

/-- While CSN is low a port is sound that has come to phase `p` with no capture pending, if the part may be in that phase. -/
theorem portSound_of_phase {s : State} (hc : s.pins.csnLow = true) (hcap : s.hp.capture = none)
    (haddr : s.hp.phase = .awaitAddress → s.hp.command = .write ∨ s.hp.command = .read)
    (ha : s.awake = true ∨ s.hp.phase = .statusStream ∨ s.hp.phase = .ignore) : s.PortSound where
  idle _ h := by simp [hc] at h
  asleep h := .inr (ha.resolve_left (by simp [h]))
  address := haddr
  capture h := absurd hcap h

/-- Loading the output byte changes nothing that the relations speak of. -/
theorem State.DeskSound.loadOut {s : State} (h : s.DeskSound) : s.loadOut.DeskSound := by
  rw [loadOut_eq]
  exact h.setPort rfl rfl ⟨h.port.idle, h.port.asleep, h.port.address, h.port.capture⟩

theorem State.DeskSound.commandByte {s : State} (h : s.DeskSound) (hp : s.inPhase .awaitCommand = true) (b : Byte) :
    (s.commandByte b).DeskSound := by
  obtain ⟨hc, hph⟩ := (inPhase_iff _ s).1 hp
  have hcap : s.hp.capture = none := h.port.no_capture (by simp [hph])
  have h1 : (s.setCommand (commandOf s.awake b).1 (commandOf s.awake b).2).DeskSound := by
    refine h.setPort rfl rfl (portSound_of_phase hc hcap ?_ ?_)
    · simp only [State.setCommand, commandOf]
      repeat' split
      all_goals simp
    · show s.awake = true ∨ _
      simp only [State.setCommand, commandOf]
      repeat' split
      all_goals simp [*]
  rw [commandByte_eq]
  refine State.DeskSound.loadOut ?_
  split
  · exact h1.requestWake _ _
  · exact h1

theorem State.DeskSound.addressByte {s : State} (h : s.DeskSound) (hp : s.inPhase .awaitAddress = true) (b : Byte) :
    (s.addressByte b).DeskSound := by
  obtain ⟨hc, hph⟩ := (inPhase_iff _ s).1 hp
  have ha : s.awake = true := h.port.awake_of_phase (by simp [hph]) (by simp [hph]) (by simp [hph])
  have hcap : s.hp.capture = none := h.port.no_capture (by simp [hph])
  refine State.DeskSound.loadOut (h.setPort rfl rfl (portSound_of_phase hc hcap (fun hx => ?_) (.inl ha)))
  dsimp only at hx
  split at hx <;> contradiction

/-- In READ_DATA, in RUN, DOZE or SETTLING, every capture and output byte goes. -/
theorem portSound_of_readData {s : State} (hc : s.pins.csnLow = true) (ha : s.awake = true)
    (hp : s.hp.phase = .readData) : s.PortSound where
  idle _ h := by simp [hc] at h
  asleep h := by simp [ha] at h
  address h := by simp [hp] at h
  capture _ := hp

theorem State.DeskSound.fetch {s : State} (h : s.DeskSound) (hp : s.inPhase .readData = true) : s.fetch.DeskSound := by
  obtain ⟨hc, hph⟩ := (inPhase_iff _ s).1 hp
  have ha : s.awake = true := h.port.awake_of_phase (by simp [hph]) (by simp [hph]) (by simp [hph])
  rw [fetch_eq]
  exact h.setPort rfl rfl (portSound_of_readData hc ha hph)

theorem State.DeskSound.turnaroundByte {s : State} (h : s.DeskSound) (hp : s.inPhase .turnaround = true) :
    s.turnaroundByte.DeskSound := by
  obtain ⟨hc, hph⟩ := (inPhase_iff _ s).1 hp
  have ha : s.awake = true := h.port.awake_of_phase (by simp [hph]) (by simp [hph]) (by simp [hph])
  have h1 : State.DeskSound { s with hp.phase := .readData } := h.setPort rfl rfl (portSound_of_readData hc ha rfl)
  exact h1.fetch (by simp [State.inPhase, hc])

/-- The address pointer advances in a transaction with no capture pending, or the transaction stops (R9). -/
theorem State.DeskSound.advance {s : State} (h : s.DeskSound) (hc : s.pins.csnLow = true) (ha : s.awake = true)
    (hcap : s.hp.capture = none) : s.advance.DeskSound := by
  by_cases hl : s.hp.pointer = 0xFF#8
  · rw [advance_of_last hl]
    exact h.setPort rfl rfl (portSound_of_phase hc hcap nofun (.inl ha))
  · rw [advance_of_not_last hl]
    exact h.setPort rfl rfl ⟨h.port.idle, h.port.asleep, h.port.address, h.port.capture⟩

theorem State.DeskSound.readByte {s : State} (h : s.DeskSound) (hp : s.inPhase .readData = true) :
    s.readByte.DeskSound := by
  obtain ⟨hc, hph⟩ := (inPhase_iff _ s).1 hp
  have ha : s.awake = true := h.port.awake_of_phase (by simp [hph]) (by simp [hph]) (by simp [hph])
  have h1 : s.settleCapture.DeskSound := by
    rw [settleCapture_eq]
    exact h.setPort rfl rfl (portSound_of_readData hc ha hph)
  have h2 : s.settleCapture.advance.DeskSound := by
    refine h1.advance ?_ ?_ ?_ <;> rw [settleCapture_eq]
    · exact hc
    · exact ha
  unfold State.readByte
  dsimp only
  split
  · rename_i hr
    refine h2.fetch ((inPhase_iff _ _).2 ⟨?_, hr⟩)
    rw [advance_pins, settleCapture_eq]
    exact hc
  · exact h2.loadOut

/-- A completed data byte of a WRITE (R6): the write is refused, is a restart, or takes effect. -/
theorem State.DeskSound.hostWriteByte {s : State} (h : s.DeskSound) (hp : s.inPhase .writeData = true) (v : Byte) :
    (s.hostWriteByte v).DeskSound := by
  obtain ⟨hc, hph⟩ := (inPhase_iff _ s).1 hp
  have ha : s.awake = true := h.port.awake_of_phase (by simp [hph]) (by simp [hph]) (by simp [hph])
  have hcap : s.hp.capture = none := h.port.no_capture (by simp [hph])
  unfold State.hostWriteByte
  dsimp only
  split
  · rename_i c _
    have h1 : (s.captureRefusal s.hp.pointer c).DeskSound := by
      rw [captureRefusal_eq]
      exact h.setPort rfl rfl (h.port.congr rfl rfl rfl rfl)
    refine State.DeskSound.loadOut (h1.advance ?_ ?_ ?_) <;> rw [captureRefusal_eq]
    exacts [hc, ha, hcap]
  · rename_i hcheck
    have h1 := h.applyWrite ha .host (inRange_of_check hcheck)
    split
    · exact h1
    · rename_i hr
      refine State.DeskSound.loadOut (h1.advance (by rw [applyWrite_pins]; exact hc) ?_ ?_)
      · exact applyWrite_awake .host _ v ha
      · rw [applyWrite_hp .host v s hr]
        exact hcap

/-! ### The edges of CSN (R4) -/

theorem State.DeskSound.riseCsn {s : State} (h : s.DeskSound) : s.riseCsn.DeskSound where
  running := h.running
  port := ⟨fun _ _ => rfl, fun _ => .inl rfl, nofun, nofun⟩
  power := h.power.congr rfl rfl rfl

theorem State.DeskSound.fallCsn {s : State} (h : s.DeskSound) : s.fallCsn.DeskSound where
  running := h.running
  port := ⟨nofun, h.port.asleep, h.port.address, h.port.capture⟩
  power := h.power.congr rfl rfl rfl

/-! ### Sleep and waking -/

/-- SLEEP is entered with CSN high, and so with no transaction under way (R187). -/
theorem State.DeskSound.enterSleep {s : State} (h : s.DeskSound) (hd : s.sleepDue = true) : s.enterSleep.DeskSound := by
  simp only [State.sleepDue, State.quiescent, Bool.and_eq_true, beq_iff_eq, Bool.not_eq_true'] at hd
  obtain ⟨hs, -, hc⟩ := hd
  have hp := h.port.idle h.running hc
  have hreq := h.power.request_none (by simp [hs])
  rw [enterSleep_eq]
  exact
    { running := h.running
      port := ⟨h.port.idle, fun _ => .inl hp, h.port.address, h.port.capture⟩
      power := ⟨nofun, nofun, fun _ => h.power.sleep (.inl hs), by simp [hreq]⟩ }

/-- Waking ends in RUN with POWER 0 (R190). -/
theorem State.DeskSound.finishWake {s : State} (h : s.DeskSound) : s.finishWake.DeskSound := by
  have hpr := finishWake_pr s
  have hrun : s.finishWake.awake = true := by rw [State.awake, hpr]; rfl
  have hhp : s.finishWake.hp = s.hp := by rw [finishWake_eq]
  refine ⟨by simpa [State.held] using h.running, ⟨?_, by simp [hrun], ?_, ?_⟩, ?_⟩
  · simpa [State.held, hhp] using h.port.idle
  · rw [hhp]; exact h.port.address
  · rw [hhp]; exact h.port.capture
  · exact powerSound_of_run (congrArg Power.state hpr) (congrArg Power.power hpr) (congrArg Power.request hpr)

/-! ### Every event and every command -/

/-- An event of a part that is not held in reset keeps the relations of the host port and of the power block. -/
theorem IsEvent.desk {due : State → Bool} {f : State → State} (e : IsEvent due f) {s : State} (h : s.DeskSound)
    (hd : due s = true) : (f s).DeskSound := by
  have hk := State.Keeps.refl s
  cases e with
  | restart => exact softRestart_desk h.running
  | wakeEnd => exact h.finishWake
  | scan _ keys => exact stable_desk.completeScan keys h
  | tick _ sns => exact stable_desk.tick sns h
  | sleepEntry => exact h.enterSleep hd
  | frame bytes => exact stable_desk.completeFrame (bytes s) h
  | frameStart | discardedByte => exact h.keeps ((cancelPending_keeps hk).trans ⟨rfl, .inl rfl⟩)
  | replyStart => exact h.keeps (startReply_keeps hk)
  | replyAbort | replyCancel => exact h.keeps ((abandonReply_keeps hk).trans ⟨rfl, .inl rfl⟩)
  | hunting | replyEnd => exact h.keeps ⟨rfl, .inl rfl⟩
  | commandByte b => exact h.commandByte hd b
  | addressByte b => exact h.addressByte hd b
  | turnaround => exact h.turnaroundByte hd
  | readData => exact h.readByte hd
  | statusStream | ignoredByte => exact h.loadOut
  | hostWrite addr v =>
    rw [State.writesAt, Bool.and_eq_true] at hd
    exact h.hostWriteByte hd.1 v
  | csnRise => exact h.riseCsn
  | csnFall => exact h.fallCsn
  | csnWhileHeld => simp [h.running] at hd

theorem State.Reaches.desk {s t : State} (hr : s.Reaches t) (h : s.DeskSound) : t.DeskSound := by
  induction hr with
  | refl => exact h
  | tail _ hstep ih =>
    obtain ⟨due, f, e, hd, rfl⟩ := hstep
    exact e.desk ih hd

/-- Of a part that is held in reset a command changes at most the level of CSN, if it is no reset (R191). -/
theorem exec_of_held (c : Instr) {s : State} (hh : s.held = true) (hr : ofReset c = false) :
    ∃ low, exec c s = .next { s with pins.csnLow := low } := by
  have hm (due : State → Bool) (f : State → State) : onMoment due f s = s := if_pos hh
  cases stepForm c with
  | event _ h => exact ⟨_, (h s).trans (congrArg _ (onEvent_of_held hh))⟩
  | moment _ h => exact ⟨_, (h s).trans (congrArg _ (hm ..))⟩
  | scan _ _ keys h => exact ⟨_, (h s).trans (congrArg _ (eventAfter_of_held hh))⟩
  | reset hc => simp [hc] at hr
  | remoteRestart =>
    exact ⟨s.pins.csnLow, by simp only [exec, execRemoteRestart, eventAfter_of_held hh, onEvent_of_held hh, ite_self]⟩
  | oscillatorReady => exact ⟨_, congrArg _ (eventAfter_of_held hh)⟩
  | replyEnd => exact ⟨s.pins.csnLow, by simp only [exec, execReplyEnd, hm, onEvent_of_held hh, ite_self]⟩
  | byteWhileAwaitingIdle b =>
    exact ⟨s.pins.csnLow, by simp only [exec, execByteWhileAwaitingIdle, hm, onEvent_of_held hh, ite_self]⟩
  | csnRise => exact ⟨false, by simp [exec, execCsnRise, hh]⟩
  | csnFall => exact ⟨true, by simp [exec, execCsnFall, hh]⟩

/-- The relations of the host port and of the power block. -/
def State.DeskRelations (s : State) : Prop := s.PortSound ∧ s.PowerSound

/-- While the part is held in reset the level of CSN bears on no relation of the port. -/
theorem State.DeskRelations.setPins {s : State} (h : s.DeskRelations) {p : Pins}
    (hp : (p.resetnLow || p.supplyLow) = true) : State.DeskRelations { s with pins := p } :=
  ⟨⟨fun hh => absurd hp (by simp [show (p.resetnLow || p.supplyLow) = false from hh]), h.1.asleep, h.1.address, h.1.capture⟩,
    h.2.congr rfl rfl rfl⟩

/-- A reset command leaves the part held, or in the power-on state (R191, R193). -/
theorem State.DeskRelations.resetUnlessHeld {s : State} (h : s.DeskRelations) (p : Straps) (pins : Pins) :
    State.DeskRelations (State.resetUnlessHeld p { s with pins := pins }) := by
  unfold State.resetUnlessHeld
  split
  · exact h.setPins ‹_›
  · exact ⟨portSound_of_reset rfl, powerSound_of_run rfl rfl rfl⟩

/-- Every command keeps the relations of the host port and of the power block. -/
theorem exec_desk {c : Instr} {s t : State} (h : s.DeskRelations) (he : exec c s = .next t) : t.DeskRelations := by
  cases hr : ofReset c with
  | false =>
    cases hh : s.held with
    | false =>
      obtain ⟨u, hu, hreach⟩ := exec_reaches c s hr
      obtain rfl : u = t := by simpa [hu] using he
      have hd := hreach.desk ⟨hh, h.1, h.2⟩
      exact ⟨hd.port, hd.power⟩
    | true =>
      obtain ⟨low, hu⟩ := exec_of_held c hh hr
      obtain rfl : { s with pins.csnLow := low } = t := by simpa [hu] using he
      exact h.setPins hh
  | true =>
    match c, hr with
    | .powerOnReset p, _ | .pinReset p, _ =>
      cases he
      exact h.resetUnlessHeld p _
    | .resetHeldLow, _ | .supplyBelowRange, _ =>
      cases he
      exact h.setPins (by simp)

end Sys2Proof.Machine

namespace Sys2Proof.Proofs

open Sys2Proof.Machine

/-- Settles O54: each event of a running part keeps the relations, and a part held in reset but for CSN stays as it is. -/
theorem stepKeepsPortAndPower : Obligations.StepKeepsPortAndPower := fun _ _ hport hpower h =>
  step_keeps (P := State.DeskRelations)
    (fun _ _ hs => ⟨hs.1.congr rfl rfl rfl rfl, hs.2.congr rfl rfl rfl⟩) (fun _ _ _ => exec_desk) ⟨hport, hpower⟩ h

end Sys2Proof.Proofs

/-! SUPPORT. The access check of one write, cause by cause, and what an accepted or refused write of a row does. -/

namespace Sys2Proof.Machine

/-! ### The access check, cause by cause (R19) -/

/-- Takes alone can be refused MISMATCH, and they are local (R77, R127). -/
theorem mismatch_of_class {r : Reg} {v : Byte} {s : State} (h : r.writeClass ≠ .localOnly) : s.mismatch r v = false := by
  cases r
  case jtake | iqtake => exact absurd rfl h
  all_goals rfl

/-- Only a register of a group, or LGO, is written while something may be busy (R20, R96, R169). -/
theorem busy_of_perMaster {r : Reg} (h : r.writeClass = .perMaster) (s : State) (m : Master) (v : Byte) :
    s.busy m r v = false := by
  cases r
  case linkCtl | linkAddr | matrix | senseCtl | mbCmd | lgo => simp [Reg.writeClass] at h
  all_goals rfl

section
variable {s : State} {m : Master} {r : Reg} {v : Byte} {g : Group}

theorem check_of_readOnly (h : r.writeClass = .readOnly) : s.check m r v = some .readOnly := by
  simp [State.check, h]

theorem check_of_localOnly (h : r.writeClass = .localOnly) : s.check .head r v = some .localOnly := by
  simp [State.check, h]

/-- A write of a group's register by the other master is refused NOT_OWNER (R51). -/
theorem check_of_not_owned (h : r.writeClass = .group g) (ho : ¬s.owns m g) : s.check m r v = some .notOwner := by
  have hn : s.notOwner m r v = true := by
    unfold State.notOwner
    rw [h]
    simpa [State.owns] using ho
  have hr : r ≠ .rlock := by rintro rfl; simp [Reg.writeClass] at h
  simp [State.check, h, hr, hn]

/-- A write of a group's register by its owner meets causes 4 and 5 alone. -/
theorem check_of_owned (h : r.writeClass = .group g) (ho : s.owns m g) :
    s.check m r v = if s.busy m r v then some .busy else if outOfRange r v then some .range else none := by
  have hn : s.notOwner m r v = false := by unfold State.notOwner; rw [h]; exact ho
  have hr : r ≠ .rlock := by rintro rfl; simp [Reg.writeClass] at h
  have hm : s.mismatch r v = false := mismatch_of_class (by simp [h])
  simp [State.check, h, hr, hn, hm]

/-- A write of a master's own copy meets cause 5 alone (R18). -/
theorem check_of_perMaster (h : r.writeClass = .perMaster) :
    s.check m r v = if outOfRange r v then some .range else none := by
  have hn : s.notOwner m r v = false := by unfold State.notOwner; rw [h]
  have hr : r ≠ .rlock := by rintro rfl; simp [Reg.writeClass] at h
  have hm : s.mismatch r v = false := mismatch_of_class (by simp [h])
  simp [State.check, h, hr, hn, hm, busy_of_perMaster h]

theorem check_of_busy (h : r.writeClass = .group g) (ho : s.owns m g) (hb : s.busy m r v = true) :
    s.check m r v = some .busy := by rw [check_of_owned h ho, hb, if_pos rfl]

theorem check_of_range (h : r.writeClass = .group g) (ho : s.owns m g) (hb : s.busy m r v = false)
    (hv : outOfRange r v = true) : s.check m r v = some .range := by simp [check_of_owned h ho, hb, hv]

theorem check_of_accepted (h : r.writeClass = .group g) (ho : s.owns m g) (hb : s.busy m r v = false)
    (hv : outOfRange r v = false) : s.check m r v = none := by simp [check_of_owned h ho, hb, hv]

/-- The host writes an interrupt register whoever owns the groups, with any value (R181). -/
theorem check_of_interrupt (h : r ∈ [.iflags0, .iflags1, .ienable0, .ienable1, .mbDoneMap, .fHitMap]) :
    s.check .host r v = none := by
  simp only [List.mem_cons, List.not_mem_nil, or_false] at h
  rcases h with rfl | rfl | rfl | rfl | rfl | rfl <;> rfl

end

/-! ### What a write does, by the class of its register -/

section
variable {s : State} {m : Master} {addr v : Byte} {r : Reg} {g : Group}

/-- A write by the owner of the register's group, with nothing busy and the value in range, takes effect. -/
theorem writeBy_owned (hs : s.writeReady m addr) (hreg : regAt addr = r) (h : r.writeClass = .group g) (ho : s.owns m g)
    (hb : s.busy m r v = false) (hv : outOfRange r v = false) (hr : r ≠ .restart) :
    writeBy m addr v s = ((s.opened m).applyWrite m r v).closed m := by
  subst hreg
  exact writeBy_accepted hs (check_of_accepted h ho hb hv) fun _ => hr

/-- A write of a master's own copy with a value in range takes effect. -/
theorem writeBy_perMaster (hs : s.writeReady m addr) (hreg : regAt addr = r) (h : r.writeClass = .perMaster)
    (hv : outOfRange r v = false) : writeBy m addr v s = ((s.opened m).applyWrite m r v).closed m := by
  subst hreg
  refine writeBy_accepted hs (by simp [check_of_perMaster h, hv]) fun _ hr => ?_
  rw [hr] at h
  cases h

/-- The host's write of an interrupt register takes effect. -/
theorem writeBy_interrupt (hs : s.writeReady .host addr) (hreg : regAt addr = r)
    (h : r ∈ [.iflags0, .iflags1, .ienable0, .ienable1, .mbDoneMap, .fHitMap]) :
    writeBy .host addr v s = (s.applyWrite .host r v).closed .host := by
  subst hreg
  refine writeBy_accepted hs (check_of_interrupt h) fun _ hr => ?_
  rw [hr] at h
  simp at h

/-- A write of a group's register by the other master is refused NOT_OWNER. -/
theorem writeBy_not_owned (hs : s.writeReady m addr) (hreg : regAt addr = r) (h : r.writeClass = .group g)
    (ho : ¬s.owns m g) : writeBy m addr v s = s.refusedWrite m addr .notOwner := by
  subst hreg
  exact writeBy_refused hs (check_of_not_owned h ho)

/-- A write by the owner while something is busy is refused BUSY. -/
theorem writeBy_busy (hs : s.writeReady m addr) (hreg : regAt addr = r) (h : r.writeClass = .group g) (ho : s.owns m g)
    (hb : s.busy m r v = true) : writeBy m addr v s = s.refusedWrite m addr .busy := by
  subst hreg
  exact writeBy_refused hs (check_of_busy h ho hb)

/-- A write by the owner of a value out of range is refused RANGE. -/
theorem writeBy_range (hs : s.writeReady m addr) (hreg : regAt addr = r) (h : r.writeClass = .group g) (ho : s.owns m g)
    (hb : s.busy m r v = false) (hv : outOfRange r v = true) : writeBy m addr v s = s.refusedWrite m addr .range := by
  subst hreg
  exact writeBy_refused hs (check_of_range h ho hb hv)

end

end Sys2Proof.Machine

/-! SUPPORT. The fields of configuration registers: codes, ranges, and what may change while an engine runs; and the statements on
configuration, selector and lamp writes. -/

namespace Sys2Proof.Machine

/-! ### Codes of fields, and back -/

theorem actionOf_code (a : Action) : actionOf (a.code.setWidth 2) = a := by cases a <;> rfl

theorem edgeOf_code (e : Edge) : edgeOf (e.code.setWidth 2) = e := by cases e <;> rfl

theorem controllerOf_code (c : Controller) : controllerOf c.code = c := by cases c <;> rfl

/-- LINKADDR is not busy while the link is OFF, or with the address that it holds (R20). -/
theorem linkAddr_not_busy {s : State} {m : Master} {v : Byte} (h : s.linkOn = false ∨ v.setWidth 5 = s.link.addr) :
    s.busy m .linkAddr v = false := by
  rcases h with h | h <;> simp [State.busy, h]

/-- MATRIX is not busy while the scanner is disabled, or with the geometry that it holds (R20). -/
theorem matrix_not_busy {s : State} {m : Master} {v : Byte}
    (h : s.ks.en = false ∨ (v.extractLsb' 4 3 = s.ks.drives ∧ v.extractLsb' 0 3 = s.ks.senses)) :
    s.busy m .matrix v = false := by
  rcases h with h | ⟨h, h'⟩
  · simp [State.busy, h]
  · simp [State.busy, h, h']

/-- A sense line count of 6 at most is in range. -/
theorem matrix_inRange {v : Byte} (h : v.extractLsb' 0 3 ≠ 6#3) (h' : v.extractLsb' 0 3 ≠ 7#3) :
    outOfRange .matrix v = false := by
  have key : ∀ x : BitVec 3, x ≠ 6#3 → x ≠ 7#3 → ¬5 < x.toNat := by decide
  simpa [outOfRange] using key _ h h'

/-- The on, off and pulse times of a lamp are in range but for 0 (R164). -/
theorem lampTime_outOfRange {r : Reg} (h : r ∈ [.lon, .loff, .lwidth]) (v : Byte) : outOfRange r v = decide (v = 0#8) := by
  have hv : v.toNat = 0 ↔ v = 0#8 := ⟨fun h => BitVec.eq_of_toNat_eq h, fun h => by rw [h]; rfl⟩
  simp only [List.mem_cons, List.not_mem_nil, or_false] at h
  rcases h with rfl | rfl | rfl <;> simp only [outOfRange, hv]

theorem lampTime_inRange {r : Reg} (h : r ∈ [.lon, .loff, .lwidth]) {v : Byte} (hv : v ≠ 0#8) :
    outOfRange r v = false := by simp [lampTime_outOfRange h, hv]

end Sys2Proof.Machine

namespace Sys2Proof.Proofs

open Sys2Proof.Machine

/-- Settles O41: each register's write passes the access check, and its effect is the register's own. -/
theorem configurationWrites : Obligations.ConfigurationWrites := by
  intro m v s
  dsimp only
  refine ⟨?_, fun ho => ⟨?_, ?_, ?_⟩, fun ho => ⟨?_, ?_, ?_, ?_, ?_⟩, fun ho => ⟨?_, ?_, ?_, ?_, ?_⟩,
    fun ho => ⟨?_, ?_, ?_, ?_, ?_⟩⟩
  · rintro rfl
    exact ⟨fun hs => congrArg _ (writeBy_interrupt hs (r := .ienable0) rfl (by simp)),
      fun hs => congrArg _ (writeBy_interrupt hs (r := .ienable1) rfl (by simp))⟩
  · exact fun h1 h2 hs => congrArg _ (writeBy_owned hs (r := .linkAddr) rfl rfl ho (linkAddr_not_busy h2)
      (by simpa [outOfRange] using h1) nofun)
  · exact fun hs => congrArg _ (writeBy_owned hs (r := .silence) rfl rfl ho rfl rfl nofun)
  · exact fun hv hs => congrArg _ (writeBy_owned hs (r := .resend) rfl rfl ho rfl (by simpa [outOfRange] using hv) nofun)
  · exact fun hv hs => congrArg _ (writeBy_owned hs (r := .jrank) rfl rfl ho rfl (by simpa [outOfRange] using hv) nofun)
  · exact fun hv hs => congrArg _ (writeBy_owned hs (r := .patience) rfl rfl ho rfl (by simpa [outOfRange] using hv) nofun)
  · exact fun h1 h6 hs => congrArg _ (writeBy_owned hs (r := .jbatch) rfl rfl ho rfl
      (by simp only [outOfRange, decide_eq_false_iff_not]; omega) nofun)
  · exact fun hs => congrArg _ (writeBy_owned hs (r := .jroute) rfl rfl ho rfl rfl nofun)
  · exact fun hv hs => congrArg _ (writeBy_owned hs (r := .jpolicy) rfl rfl ho rfl (by simpa [outOfRange] using hv) nofun)
  · rintro rfl hs
    exact congrArg _ (writeBy_owned hs (r := .iqDefault) rfl rfl ho rfl rfl nofun)
  · rintro rfl hs
    exact congrArg _ (writeBy_owned hs (r := .iqDefault) rfl rfl ho rfl rfl nofun)
  · intro a hcode hs
    have hw := writeBy_owned hs (v := v) (r := .fctl) rfl rfl ho rfl rfl nofun
    simp only [State.applyWrite, ← hcode, actionOf_code] at hw
    cases m <;> exact congrArg _ hw
  · intro hv hs
    have hw := writeBy_owned hs (r := .fchan) rfl rfl ho rfl (by simpa [outOfRange] using hv) nofun
    cases m <;> exact congrArg _ hw
  · intro hs
    have hw := writeBy_owned hs (v := v) (r := .fmask) rfl rfl ho rfl rfl nofun
    cases m <;> exact congrArg _ hw
  · exact fun h6 h7 hb hs => congrArg _ (writeBy_owned hs (r := .matrix) rfl rfl ho (matrix_not_busy hb)
      (matrix_inRange h6 h7) nofun)
  · exact fun h1 h16 hs => congrArg _ (writeBy_owned hs (r := .scanPeriod) rfl rfl ho rfl
      (by simp only [outOfRange, decide_eq_false_iff_not]; omega) nofun)
  · exact fun h1 h8 hs => congrArg _ (writeBy_owned hs (r := .debounce) rfl rfl ho rfl
      (by simp only [outOfRange, decide_eq_false_iff_not]; omega) nofun)
  · exact fun hs => congrArg _ (writeBy_owned hs (r := .longTime) rfl rfl ho rfl rfl nofun)
  · exact fun hs => congrArg _ (writeBy_owned hs (r := .rept) rfl rfl ho rfl rfl nofun)

/-- Settles O42: a selector goes into the writer's own copy, a lamp's field into the lamp that the writer selects. -/
theorem selectorAndLampWrites : Obligations.SelectorAndLampWrites := by
  intro m v s
  dsimp only
  refine ⟨fun i hi hs => ?_, fun i hi hs => ?_, fun i hi hs => ?_, fun hv hs => ?_,
    fun ho => ⟨fun c hc hs => ?_, fun hv hs => ?_, fun hv hs => ?_, fun hs => ?_, fun hs => ?_, fun hv hs => ?_⟩⟩
  · have hw := writeBy_perMaster hs (v := v) (r := .fsel) rfl rfl (by simp [outOfRange, hi]; omega)
    have hf : Fin.ofNat 8 v.toNat = i := Fin.ext (by simp [hi])
    simp only [State.applyWrite, hf] at hw
    cases m <;> exact congrArg _ hw
  · have hw := writeBy_perMaster hs (v := v) (r := .mbsel) rfl rfl (by simp [outOfRange, hi]; omega)
    have hf : Fin.ofNat 6 v.toNat = i := Fin.ext (by simp [hi])
    simp only [State.applyWrite, hf] at hw
    cases m <;> exact congrArg _ hw
  · have hw := writeBy_perMaster hs (v := v) (r := .lsel) rfl rfl (by simp [outOfRange, hi]; omega)
    have hf : Fin.ofNat 12 v.toNat = i := Fin.ext (by simp [hi])
    simp only [State.applyWrite, hf] at hw
    cases m <;> exact congrArg _ hw
  · have hw := writeBy_perMaster hs (v := v) (r := .lgoLevel) rfl rfl (by simpa [outOfRange] using hv)
    cases m <;> exact congrArg _ hw
  · subst hc
    have hw := writeBy_owned hs (v := c.code) (r := .lcfg) rfl rfl ho rfl (by cases c <;> rfl) nofun
    simp only [State.applyWrite, controllerOf_code] at hw
    cases m <;> exact congrArg _ hw
  · have hw := writeBy_owned hs (v := v) (r := .lon) rfl rfl ho rfl (lampTime_inRange (by simp) hv) nofun
    cases m <;> exact congrArg _ hw
  · have hw := writeBy_owned hs (v := v) (r := .loff) rfl rfl ho rfl (lampTime_inRange (by simp) hv) nofun
    cases m <;> exact congrArg _ hw
  · have hw := writeBy_owned hs (v := v) (r := .lcount) rfl rfl ho rfl rfl nofun
    cases m <;> exact congrArg _ hw
  · have hw := writeBy_owned hs (v := v) (r := .ldelay) rfl rfl ho rfl rfl nofun
    cases m <;> exact congrArg _ hw
  · have hw := writeBy_owned hs (v := v) (r := .lwidth) rfl rfl ho rfl (lampTime_inRange (by simp) hv) nofun
    cases m <;> exact congrArg _ hw

end Sys2Proof.Proofs

/-! SUPPORT. Table 1-1 by address: the write classes, the CL counters and the lamp times; and the state that a refused write
leaves. -/

namespace Sys2Proof.Machine

/-! ### Addresses -/

/-- The address lies in one of these spans, both ends included. -/
abbrev inSpans (spans : List (Nat × Nat)) (a : Byte) : Prop := ∃ p ∈ spans, p.1 ≤ a.toNat ∧ a.toNat ≤ p.2

/-- The spans of Table 1-1 of each write class. -/
def classSpans : WriteClass → List (Nat × Nat)
  | .readOnly =>
    [(0x00, 0x02), (0x04, 0x04), (0x08, 0x0B), (0x16, 0x1F), (0x24, 0x25), (0x2A, 0x2A), (0x2E, 0x2F), (0x32, 0x3E),
      (0x40, 0x40), (0x43, 0x59), (0x5B, 0x5F), (0x64, 0x67), (0x69, 0x69), (0x81, 0x8F), (0x96, 0x9F), (0xA4, 0xAF),
      (0xB8, 0xB8), (0xBC, 0xFF)]
  | .localOnly => [(0x10, 0x15), (0x3F, 0x3F), (0x5A, 0x5A)]
  | .ownership => [(0x06, 0x07)]
  | .perMaster => [(0x0C, 0x0E), (0x60, 0x60), (0x68, 0x68), (0xB0, 0xB0), (0xB9, 0xB9)]
  | .lampController => [(0xBA, 0xBA)]
  | .group .sys => [(0x03, 0x03), (0x05, 0x05), (0x0F, 0x0F)]
  | .group .link => [(0x20, 0x23), (0x26, 0x29)]
  | .group .outbox => [(0x2B, 0x2D), (0x30, 0x31), (0x6A, 0x80)]
  | .group .inbox => [(0x41, 0x42), (0x61, 0x63)]
  | .group .input => [(0x90, 0x95), (0xA0, 0xA3)]
  | .group .lamp => [(0xB1, 0xB7), (0xBB, 0xBB)]

/-- The write classes. -/
def writeClasses : List WriteClass :=
  [.readOnly, .localOnly, .ownership, .perMaster, .lampController, .group .sys, .group .link, .group .outbox, .group .inbox,
    .group .input, .group .lamp]

theorem mem_writeClasses (c : WriteClass) : c ∈ writeClasses := by
  rcases c with _ | g | _ | _ | _ | _
  case group => cases g <;> decide
  all_goals decide

/-- The write class of the register at each address. -/
theorem writeClass_at (c : WriteClass) (a : Byte) (h : inSpans (classSpans c) a) : (regAt a).writeClass = c := by
  have table : ∀ a : Byte, ∀ c ∈ writeClasses, inSpans (classSpans c) a → (regAt a).writeClass = c := by decide +kernel
  exact table a c (mem_writeClasses c) h

theorem regAt_senseCtl : ∀ n : Fin 4, regAt (0xA0#8 + BitVec.ofNat 8 n.val) = .senseCtl n := by decide

theorem regAt_lampTime : ∀ a : Byte, inSpans [(0xB3, 0xB4), (0xB7, 0xB7)] a → regAt a ∈ [.lon, .loff, .lwidth] := by
  decide

/-! ### CL counters (R13) -/

/-- A CL counter as a register. -/
def counterReg : CounterReg → Reg
  | .crcErr => .crcErr | .formErr => .formErr | .collide => .collide | .unknown => .unknown
  | .iqDrops => .iqDrops | .mbDrops => .mbDrops | .mbStales => .mbStales | .lDeny => .ldeny

/-- The group of a CL counter (R51). -/
def counterGroup : CounterReg → Group
  | .crcErr | .formErr | .collide | .unknown => .link
  | .iqDrops => .inbox
  | .mbDrops | .mbStales => .outbox
  | .lDeny => .lamp

theorem regAt_counterAddr (c : CounterReg) : regAt (counterAddr c) = (counterReg c) := by cases c <;> rfl

theorem counter_writeClass (c : CounterReg) : (counterReg c).writeClass = .group (counterGroup c) := by cases c <;> rfl

theorem counter_not_busy (c : CounterReg) (s : State) (m : Master) (v : Byte) : s.busy m (counterReg c) v = false := by
  cases c <;> rfl

/-- A CL counter is written with 0x00 alone. -/
theorem counter_outOfRange (c : CounterReg) (v : Byte) : outOfRange (counterReg c) v = decide (v ≠ 0#8) := by
  have hv : v.toNat = 0 ↔ v = 0#8 := ⟨fun h => BitVec.eq_of_toNat_eq h, fun h => by rw [h]; rfl⟩
  cases c <;> simp only [counterReg, outOfRange, hv, ne_eq]

theorem linkCounter_of_span : ∀ a : Byte, inSpans [(0x26, 0x29)] a →
    ∃ c ∈ [CounterReg.crcErr, .formErr, .collide, .unknown], a = counterAddr c := by decide

theorem mailboxCounter_of_span : ∀ a : Byte, inSpans [(0x6B, 0x6C)] a →
    ∃ c ∈ [CounterReg.mbDrops, .mbStales], a = counterAddr c := by decide

/-! ### Fields with a quiet engine -/

/-- A value that is 0 or above the field's range. -/
theorem zero_or_above {v : Byte} {n : Nat} (h : v = 0#8 ∨ n + 1 ≤ v.toNat) :
    decide (v.toNat = 0 ∨ n < v.toNat) = true := by
  rcases h with rfl | h
  · simp
  · simpa using .inr h

/-- Only LOAD and ARM can be busy (R96). -/
theorem mbCmd_not_busy {v : Byte} {s : State} {m : Master} (h : v = 0#8 ∨ 4 ≤ v.toNat) : s.busy m .mbCmd v = false := by
  have h1 : v ≠ 1#8 := by rintro rfl; simp at h
  have h2 : v ≠ 2#8 := by rintro rfl; simp at h
  simp [State.busy, h1, h2]

/-- EDGE and DEBOUNCE may not change while the input is enabled (R20). -/
theorem senseCtl_busy {s : State} {m : Master} {n : Fin 4} {v : Byte} (he : s.st.inputs[n].en = true)
    (hv : v.extractLsb' 1 2 ≠ s.st.inputs[n].edge.code.setWidth 2 ∨ v.extractLsb' 4 4 ≠ s.st.inputs[n].debounce) :
    s.busy m (.senseCtl n) v = true := by
  simp only [State.busy, he, Bool.true_and]
  simpa using hv

theorem senseCtl_not_busy {s : State} {m : Master} {n : Fin 4} {v : Byte}
    (h : s.st.inputs[n].en = false ∨
      (v.extractLsb' 1 2 = s.st.inputs[n].edge.code.setWidth 2 ∧ v.extractLsb' 4 4 = s.st.inputs[n].debounce)) :
    s.busy m (.senseCtl n) v = false := by
  rcases h with h | ⟨h, h'⟩
  · simp only [State.busy, h, Bool.false_and]
  · simp [State.busy, h, h']

theorem lampTime_writeClass {r : Reg} (h : r ∈ [.lon, .loff, .lwidth]) : r.writeClass = .group .lamp := by
  simp only [List.mem_cons, List.not_mem_nil, or_false] at h
  rcases h with rfl | rfl | rfl <;> rfl

theorem lampTime_not_busy {r : Reg} (h : r ∈ [.lon, .loff, .lwidth]) {s : State} {m : Master} {v : Byte} :
    s.busy m r v = false := by
  simp only [List.mem_cons, List.not_mem_nil, or_false] at h
  rcases h with rfl | rfl | rfl <;> rfl

/-- The LCFG controller admits every master that it does not exclude (R165). -/
theorem admits_iff (c : Controller) (m : Master) :
    c.admits m = false ↔ (c = .localOnly ∧ m = .head) ∨ (c = .remoteOnly ∧ m = .host) := by
  cases c <;> cases m <;> simp [Controller.admits]

/-- A command to a lamp whose controller (LCFG) excludes the writer is refused NOT_OWNER (R165). -/
theorem check_lgo_excluded {s : State} {m : Master} {v : Byte}
    (h : ((s.selLamp m).ctrl = .localOnly ∧ m = .head) ∨ ((s.selLamp m).ctrl = .remoteOnly ∧ m = .host)) :
    s.check m .lgo v = some .notOwner := by
  have hn : s.notOwner m .lgo v = true := by simp [State.notOwner, Reg.writeClass, (admits_iff _ _).2 h]
  simp [State.check, Reg.writeClass, hn]

/-- A value of LGO that names no op is refused RANGE (R167). -/
theorem check_lgo_range {s : State} {m : Master} {v : Byte}
    (h : ¬(((s.selLamp m).ctrl = .localOnly ∧ m = .head) ∨ ((s.selLamp m).ctrl = .remoteOnly ∧ m = .host)))
    (hv : 5 ≤ v.toNat) : s.check m .lgo v = some .range := by
  have hn : s.notOwner m .lgo v = false := by
    have ha : (s.selLamp m).ctrl.admits m = true := by simpa using mt (admits_iff _ _).1 h
    simp [State.notOwner, Reg.writeClass, ha]
  have hb : s.busy m .lgo v = false := by
    have h3 : v ≠ 3#8 := by rintro rfl; simp at hv
    simp [State.busy, h3]
  have hr : outOfRange .lgo v = true := by simp [outOfRange]; omega
  simp [State.check, Reg.writeClass, hn, hb, hr]

/-! ### The state after a refused write -/

/-- The end of a data byte of a WRITE: the pointer moves on, or past 0xFF the transaction stops (R4, R5, R9). -/
theorem advance_loadOut {t : State} (hp : t.hp.phase = .writeData) : t.advance.loadOut = { t with hp := { t.hp with
    phase := if t.hp.pointer = 0xFF#8 then .ignore else .writeData
    pointer := if t.hp.pointer = 0xFF#8 then 0xFF#8 else t.hp.pointer + 1
    out := if t.hp.pointer = 0xFF#8 then 0xFF#8 else t.statusByte } } := by
  by_cases hl : t.hp.pointer = 0xFF#8
  · rw [advance_of_last hl, loadOut_of_ignore rfl]
    simp [hl]
  · rw [advance_of_not_last hl, loadOut_of_status (by simp [hp]) (by simp [hp])]
    simp only [hl, if_false, hp]
    rfl

/-- A refused write of the host: the refusal capture, and the transaction that goes on or stops (R9, R21). -/
theorem refusedWrite_host {addr : Byte} {s : State} (hs : s.writeReady .host addr) (c : Cause) :
    let u : State := { s with
      rc := {
        addr := if s.ia.flags0.getLsbD 0 then s.rc.addr else addr
        cause := if s.ia.flags0.getLsbD 0 then s.rc.cause else c.code
        count := counted s.rc.count }
      ia.flags0 := s.ia.flags0 ||| refusedFlag
      hp.phase := if addr = 0xFF#8 then .ignore else .writeData
      hp.pointer := if addr = 0xFF#8 then 0xFF#8 else addr + 1 }
    s.refusedWrite .host addr c = { u with hp.out := if addr = 0xFF#8 then 0xFF#8 else u.statusByte } := by
  obtain ⟨-, ⟨-, -, hp⟩, rfl⟩ := hs
  dsimp only [State.refusedWrite]
  have hw : (s.captureRefusal s.hp.pointer c).hp.phase = .writeData := by rw [captureRefusal_eq]; exact hp
  rw [advance_loadOut hw, captureRefusal_eq]
  rfl

/-- A refused write of the head is answered at the end of the step, which a pending reply keeps out of SLEEP (R63, R187). -/
theorem refusedWrite_head (addr : Byte) (c : Cause) (s : State) :
    s.refusedWrite .head addr c = s.heard.replyReceipt c.code addr := endOfStep_of_busy _ nofun

end Sys2Proof.Machine

namespace Sys2Proof.Proofs

open Sys2Proof.Machine

/-- Settles O43: what a refusal leaves is the same for every cause, and the cause is found by the register's class and its
fields. -/
theorem refusedWrites : Obligations.RefusedWrites := by
  intro m addr v s hs refused refuses among
  have key : ∀ c, s.check m (regAt addr) v = some c → refuses c := by
    intro c hc
    refine congrArg Host.Outcome.next ((writeBy_refused hs hc).trans ?_)
    cases m with
    | host => exact refusedWrite_host hs c
    | head => exact refusedWrite_head addr c s
  have class_ {c : WriteClass} (h : among (classSpans c)) : (regAt addr).writeClass = c := writeClass_at c addr h
  have range {r : Reg} {g : Group} (hr : regAt addr = r) (h : r.writeClass = .group g) (ho : s.owns m g)
      (hb : s.busy m r v = false) (hv : outOfRange r v = true) : refuses .range := by
    subst hr
    exact key _ (check_of_range h ho hb hv)
  have busy {r : Reg} {g : Group} (hr : regAt addr = r) (h : r.writeClass = .group g) (ho : s.owns m g)
      (hb : s.busy m r v = true) : refuses .busy := by
    subst hr
    exact key _ (check_of_busy h ho hb)
  have own {r : Reg} (hr : regAt addr = r) (h : r.writeClass = .perMaster) (hv : outOfRange r v = true) :
      refuses .range := by
    subst hr
    exact key _ (by simp [check_of_perMaster h, hv])
  have counter {c : CounterReg} (hr : addr = counterAddr c) (ho : s.owns m (counterGroup c)) (hv : v ≠ 0#8) :
      refuses .range :=
    range (hr ▸ regAt_counterAddr c) (counter_writeClass c) ho (counter_not_busy c s m v) (by simp [counter_outOfRange, hv])
  have notOwner (g : Group) (h : among (classSpans (.group g))) (ho : ¬s.owns m g) : refuses .notOwner :=
    key _ (check_of_not_owned (class_ h) ho)
  refine ⟨key, fun h => key _ (check_of_readOnly (class_ h)), ?_, ?_, notOwner .sys, notOwner .link, notOwner .outbox,
    notOwner .inbox, notOwner .input, notOwner .lamp, fun ho => ⟨?_, ?_⟩, fun ho => ⟨?_, ?_, ?_, ?_⟩,
    fun ho => ⟨?_, ?_, ?_, ?_, ?_, ?_, ?_, ?_⟩, fun ho => ⟨?_, ?_, ?_⟩, fun ho => ⟨?_, ?_, ?_, ?_⟩, fun ho => ⟨?_, ?_, ?_⟩, ?_, ?_, ?_, ?_, ?_⟩
  · rintro rfl rfl
    exact key _ rfl
  · rintro h rfl
    exact key _ (check_of_localOnly (class_ h))
  -- SYS
  · exact fun h hv => range (r := .power) (h ▸ rfl) rfl ho rfl (by simp [outOfRange]; omega)
  · exact fun h hv => range (r := .restart) (h ▸ rfl) rfl ho rfl
      (by simpa [outOfRange] using fun h' => hv (BitVec.eq_of_toNat_eq h'))
  -- LINK
  · exact fun h hl hv => busy (r := .linkAddr) (h ▸ rfl) rfl ho (by simp [State.busy, hl, hv])
  · exact fun h hb hv => range (r := .linkAddr) (h ▸ rfl) rfl ho (linkAddr_not_busy hb) (by simp [outOfRange, hv])
  · exact fun h hv => range (r := .resend) (h ▸ rfl) rfl ho rfl (by simp [outOfRange]; omega)
  · intro h hv
    obtain ⟨c, hc, ha⟩ := linkCounter_of_span addr h
    refine counter ha ?_ hv
    simp only [List.mem_cons, List.not_mem_nil, or_false] at hc
    rcases hc with rfl | rfl | rfl | rfl <;> exact ho
  -- OUTBOX
  · exact fun h hv => range (r := .jrank) (h ▸ rfl) rfl ho rfl (by simp [outOfRange]; omega)
  · exact fun h hv => range (r := .patience) (h ▸ rfl) rfl ho rfl (by simp [outOfRange]; omega)
  · exact fun h hv => range (r := .jbatch) (h ▸ rfl) rfl ho rfl (zero_or_above hv)
  · exact fun h hv => range (r := .jpolicy) (h ▸ rfl) rfl ho rfl (by simp [outOfRange]; omega)
  · exact fun h hv => range (r := .mbCmd) (h ▸ rfl) rfl ho (mbCmd_not_busy hv) (zero_or_above hv)
  · intro h hv
    obtain ⟨c, hc, ha⟩ := mailboxCounter_of_span addr h
    refine counter ha ?_ hv
    simp only [List.mem_cons, List.not_mem_nil, or_false] at hc
    rcases hc with rfl | rfl <;> exact ho
  · exact fun h hv => range (r := .mbChan) (h ▸ rfl) rfl ho rfl (by simp [outOfRange]; omega)
  · exact fun h hv => range (r := .mbLen) (h ▸ rfl) rfl ho rfl (by simp [outOfRange]; omega)
  -- INBOX
  · exact fun h h0 h3 => range (r := .iqDefault) (h ▸ rfl) rfl ho rfl
      (by simpa [outOfRange] using ⟨fun h' => h0 (BitVec.eq_of_toNat_eq h'), fun h' => h3 (BitVec.eq_of_toNat_eq h')⟩)
  · exact fun h hv => counter (c := .iqDrops) h ho hv
  · exact fun h hv => range (r := .fchan) (h ▸ rfl) rfl ho rfl (by simp [outOfRange]; omega)
  -- INPUT
  · intro h
    refine ⟨fun he hv => busy (r := .matrix) (h ▸ rfl) rfl ho (by simpa [State.busy, he] using hv),
      fun hb hv => range (r := .matrix) (h ▸ rfl) rfl ho (matrix_not_busy hb) ?_⟩
    rcases hv with hv | hv <;> simp [outOfRange, hv]
  · exact fun h hv => range (r := .scanPeriod) (h ▸ rfl) rfl ho rfl (zero_or_above hv)
  · exact fun h hv => range (r := .debounce) (h ▸ rfl) rfl ho rfl (zero_or_above hv)
  · intro n h i edge
    have hcode : i.edge.code.setWidth 2 = edge := by
      show i.edge.code.setWidth 2 = match i.edge with | .rise => 0#2 | .fall => 1#2 | .both => 2#2
      cases i.edge <;> rfl
    rw [← hcode]
    refine ⟨fun he hv => busy (r := .senseCtl n) (h ▸ regAt_senseCtl n) rfl ho ?_,
      fun hb hv => range (r := .senseCtl n) (h ▸ regAt_senseCtl n) rfl ho ?_ (by simpa [outOfRange] using hv)⟩
    · exact senseCtl_busy he hv
    · exact senseCtl_not_busy hb
  -- LAMP
  · exact fun h hv => range (r := .lcfg) (h ▸ rfl) rfl ho rfl (by simp [outOfRange]; omega)
  · intro h hv
    have hr := regAt_lampTime addr h
    exact range rfl (lampTime_writeClass hr) ho (lampTime_not_busy hr) (by simp [lampTime_outOfRange hr, hv])
  · exact fun h hv => counter (c := .lDeny) h ho hv
  -- the writer's own copies
  · exact fun h hv => own (r := .fsel) (h ▸ rfl) rfl (by simp [outOfRange]; omega)
  · exact fun h hv => own (r := .mbsel) (h ▸ rfl) rfl (by simp [outOfRange]; omega)
  · exact fun h hv => own (r := .lsel) (h ▸ rfl) rfl (by simp [outOfRange]; omega)
  · exact fun h hv => own (r := .lgoLevel) (h ▸ rfl) rfl (by simp [outOfRange]; omega)
  -- LGO
  · intro h
    have hr : regAt addr = .lgo := h ▸ rfl
    exact ⟨fun hx => key _ (hr ▸ check_lgo_excluded hx), fun hx hv => key _ (hr ▸ check_lgo_range hx hv)⟩

end Sys2Proof.Proofs

/-! SUPPORT. The effects of writes to POWER, LOCALTIME, the flags, LINKCTL, SCANCTL and SENSECTLn; and the statements on them. -/

namespace Sys2Proof.Machine

theorem opened_awake {m : Master} {addr : Byte} {s : State} (hs : s.writeReady m addr) : (s.opened m).awake = true := by
  cases m <;> exact hs.1

/-! ### LOCALTIME (R16, R157) -/

theorem regAt_localTimeStage : ∀ i : Fin 3, regAt (0x0C#8 + BitVec.ofNat 8 i.val) = .localTime (Fin.castSucc i) := by
  decide

theorem localTime_perMaster {i : Fin 4} (h : i ≠ 3) : (Reg.localTime i).writeClass = .perMaster := if_neg h

/-- A byte below 0x0F goes into the writer's staging alone. -/
theorem writeLocalTime_of_stage (m : Master) {i : Fin 4} (h : i ≠ 3) (v : Byte) (s : State) :
    s.writeLocalTime m i v = s.updCopies m fun c => { c with time := c.time.set i v } := if_neg h

/-- The byte at 0x0F commits the three staged bytes with it. -/
theorem writeLocalTime_of_commit (m : Master) (v : Byte) (s : State) : s.writeLocalTime m 3 v =
    { s.updCopies m fun c => { c with time := c.time.set 3 v } with
      st.localTime := (s.copies m).time[0] ++ (s.copies m).time[1] ++ (s.copies m).time[2] ++ v } := by
  simp [State.writeLocalTime, wordOf]

/-! ### Flags (R22, R179) -/

theorem clearFlags0_eq (v : Byte) (s : State) : s.clearFlags0 v = { s with
    ia.flags0 := s.ia.flags0 &&& ~~~v, rc.count := if v.getLsbD 0 then 0 else s.rc.count } := by
  unfold State.clearFlags0
  cases v.getLsbD 0 <;> rfl

/-! ### LINKCTL (R20, R41) -/

/-- LINKCTL is not busy while the link is OFF, or with the RATE that it holds (R20). -/
theorem linkCtl_not_busy {s : State} {m : Master} {v : Byte} (h : s.linkOn = false ∨ v.extractLsb' 1 2 = s.link.rate) :
    s.busy m .linkCtl v = false := by
  rcases h with h | h <;> simp [State.busy, h]

/-- A write that keeps EN changes RATE alone. -/
theorem writeLinkCtl_of_same {v : Byte} {s : State} (h : v.getLsbD 0 = s.link.en) :
    s.writeLinkCtl v = { s with link.rate := v.extractLsb' 1 2, link.en := v.getLsbD 0 } := by
  unfold State.writeLinkCtl
  rw [h]
  cases s.link.en <;> rfl

theorem writeLinkCtl_of_enable {v : Byte} {s : State} (h : v.getLsbD 0 = true) (he : s.link.en = false) :
    s.writeLinkCtl v = State.enableLink { s with link.rate := v.extractLsb' 1 2, link.en := true } := by
  unfold State.writeLinkCtl
  rw [h, he]
  rfl

theorem writeLinkCtl_of_disable {v : Byte} {s : State} (h : v.getLsbD 0 = false) (he : s.link.en = true) :
    s.writeLinkCtl v = State.disableLink { s with link.rate := v.extractLsb' 1 2, link.en := false } := by
  unfold State.writeLinkCtl
  rw [h, he]
  rfl

/-! ### SCANCTL (R133, R145) -/

/-- A write that keeps EN changes SLEEPWAKE alone. -/
theorem writeScanCtl_of_same {v : Byte} {s : State} (h : v.getLsbD 0 = s.ks.en) :
    s.writeScanCtl v = { s with ks.sleepWake := v.getLsbD 1 } := by
  unfold State.writeScanCtl
  rw [h]
  dsimp only
  cases s.ks.en <;> rfl

/-- EN 1 written while it was 0 starts the scanner with every key UP. -/
theorem writeScanCtl_of_enable {v : Byte} {s : State} (h : v.getLsbD 0 = true) (he : s.ks.en = false) :
    s.writeScanCtl v = { s with ks := { s.ks with
      en := true, sleepWake := v.getLsbD 1, keys := Vector.replicate 48 Key.up, clock := 0, due := false } } := by
  unfold State.writeScanCtl
  rw [h, he]
  rfl

/-- The records of a forced release are a KEY_UP of detail 2 for each counted key, in order. -/
theorem forcedEvents_eq (ks : Scanner) : ks.forcedEvents =
    ((List.finRange 48).filter fun k => (ks.keyState k).isCounted).map
      fun k => { kind := .keyUp, subject := BitVec.ofNat 8 k.val, detail := 2 } := by
  unfold Scanner.forcedEvents
  induction List.finRange 48 with
  | nil => rfl
  | cons k rest ih =>
    rw [List.filterMap_cons, List.filter_cons, ih]
    cases (ks.keyState k).isCounted <;> rfl

/-- EN 0 written while it was 1 stops the scanner with a forced release. -/
theorem writeScanCtl_of_disable {v : Byte} {s : State} (h : v.getLsbD 0 = false) (he : s.ks.en = true) :
    s.writeScanCtl v = { s with
      ks := { s.ks with
        en := false, sleepWake := v.getLsbD 1, keys := Vector.replicate 48 Key.up, clock := 0, due := false }
      jr := (s.recordAll s.ks.forcedEvents).jr
      ia.flags1 := (s.recordAll s.ks.forcedEvents).ia.flags1
      lm := s.lm.takeDown 0#48 } := by
  have hw : s.writeScanCtl v = State.forcedRelease { s with ks.en := false, ks.sleepWake := v.getLsbD 1 } := by
    unfold State.writeScanCtl
    rw [h, he]
    rfl
  have hr := recordAll_congr s.ks.forcedEvents { s with ks.en := false, ks.sleepWake := v.getLsbD 1 } s rfl rfl rfl rfl
  rw [hw, forcedRelease_eq, allUp_downSet]
  refine Eq.trans ?_ (congrArg₂ (fun j f => { s with
    ks := { s.ks with
      en := false, sleepWake := v.getLsbD 1, keys := Vector.replicate 48 Key.up, clock := 0, due := false }
    jr := j, ia.flags1 := f, lm := s.lm.takeDown 0#48 }) hr.1 hr.2)
  rfl

/-! ### SENSECTLn (R150, R151) -/

/-- A write that keeps EN leaves the input's running state. -/
theorem configure_of_same {i : SenseInput} {v : Byte} (h : v.getLsbD 0 = i.en) : i.configure v = { i with
    en := v.getLsbD 0, edge := edgeOf (v.extractLsb' 1 2), wake := v.getLsbD 3, debounce := v.extractLsb' 4 4 } := if_pos h

/-- A change of EN leaves the input not primed. -/
theorem configure_of_change {i : SenseInput} {v : Byte} (h : v.getLsbD 0 ≠ i.en) : i.configure v = { i with
    en := v.getLsbD 0, edge := edgeOf (v.extractLsb' 1 2), wake := v.getLsbD 3, debounce := v.extractLsb' 4 4
    primed := false, level := false, counter := 0 } := if_neg h

/-- An assigned EDGE and a DEBOUNCE other than 0 are in range. -/
theorem senseCtl_inRange {n : Fin 4} {v : Byte} {e : Edge} (he : e.code.setWidth 2 = v.extractLsb' 1 2)
    (hd : v.extractLsb' 4 4 ≠ 0#4) : outOfRange (.senseCtl n) v = false := by
  have h3 : v.extractLsb' 1 2 ≠ 3#2 := by rw [← he]; cases e <;> decide
  simp [outOfRange, h3, hd]

theorem edge_code_inj {a b : Edge} (h : a.code.setWidth 2 = b.code.setWidth 2) : a = b := by
  rw [← edgeOf_code a, h, edgeOf_code]

/-! ### Field EN of a written byte -/

theorem withEn_bit (v : Byte) : (withEn v).getLsbD 0 = true := by simp [withEn]

theorem withoutEn_bit (v : Byte) : (withoutEn v).getLsbD 0 = false := by simp [withoutEn]

/-- Forcing EN leaves the fields above it as they are. -/
theorem withEn_field (v : Byte) (n w : Nat) (hn : 1 ≤ n) : (withEn v).extractLsb' n w = v.extractLsb' n w := by
  apply BitVec.eq_of_getLsbD_eq
  intro i _
  simp only [BitVec.getLsbD_extractLsb', withEn, BitVec.getLsbD_or, BitVec.getLsbD_one]
  simp [show n ≠ 0 by omega]

theorem withoutEn_field (v : Byte) (n w : Nat) (hn : 1 ≤ n) (hw : n + w ≤ 8) :
    (withoutEn v).extractLsb' n w = v.extractLsb' n w := by
  have hmask : ∀ k, 1 ≤ k → k < 8 → (0xFE#8).getLsbD k = true := by decide
  apply BitVec.eq_of_getLsbD_eq
  intro i hi
  simp only [BitVec.getLsbD_extractLsb', withoutEn, BitVec.getLsbD_and]
  rw [hmask (n + i) (by omega) (by omega), Bool.and_true]

theorem withEn_bit_above (v : Byte) {n : Nat} (hn : 1 ≤ n) : (withEn v).getLsbD n = v.getLsbD n := by
  have h := congrArg (fun x => x.getLsbD 0) (withEn_field v n 1 hn)
  simpa [BitVec.getLsbD_extractLsb'] using h

theorem withoutEn_bit_above (v : Byte) {n : Nat} (hn : 1 ≤ n) (h8 : n < 8) :
    (withoutEn v).getLsbD n = v.getLsbD n := by
  have h := congrArg (fun x => x.getLsbD 0) (withoutEn_field v n 1 hn (by omega))
  simpa [BitVec.getLsbD_extractLsb'] using h

end Sys2Proof.Machine

namespace Sys2Proof.Proofs

open Sys2Proof.Machine

/-- Settles O45: POWER by its owner and by the other master, then the staged bytes of LOCALTIME and the commit. -/
theorem powerAndTimeWrites : Obligations.PowerAndTimeWrites := by
  refine ⟨fun m s hs => ⟨fun ho => ?_, fun ho => ?_⟩, fun m v s => ?_⟩
  · have write {v : Byte} (hv : outOfRange .power v = false) :
        writeBy m 0x03#8 v s = (State.closed m { s.opened m with
          pr.power := v, pr.state := if v = 0#8 then .run else if v = 1#8 then .doze else .settling }) := by
      rw [writeBy_owned hs (r := .power) rfl rfl ho rfl hv nofun, State.applyWrite,
        requestPower_of_awake v (opened_awake hs)]
    exact ⟨congrArg _ (write rfl), congrArg _ (write rfl), congrArg _ (write rfl)⟩
  · have refused (v : Byte) := writeBy_not_owned (v := v) hs (r := .power) rfl rfl ho
    exact ⟨congrArg _ (refused _), congrArg _ (refused _), congrArg _ (refused _)⟩
  · dsimp only
    refine ⟨fun i hs => ?_, fun hs => ⟨fun ho => ?_, fun ho => ?_⟩⟩
    · have hi : Fin.castSucc i ≠ 3 := by intro h; have := congrArg Fin.val h; simp at this; omega
      have hr : regAt (0x0C#8 + BitVec.ofNat 8 i.val) = .localTime (Fin.castSucc i) := regAt_localTimeStage i
      have hw := writeBy_perMaster (v := v) hs hr (localTime_perMaster hi) rfl
      rw [State.applyWrite, writeLocalTime_of_stage m hi] at hw
      cases m <;> exact congrArg _ hw
    · have hw := writeBy_owned (v := v) hs (r := .localTime 3) rfl rfl ho rfl rfl nofun
      rw [State.applyWrite, writeLocalTime_of_commit] at hw
      cases m <;> exact congrArg _ hw
    · exact congrArg _ (writeBy_not_owned hs (r := .localTime 3) rfl rfl ho)

/-- Settles O46: the host's W1C writes, then every CL counter by its group and value. -/
theorem flagAndCounterClears : Obligations.FlagAndCounterClears := by
  refine ⟨fun v s => ⟨fun hs => ?_, fun hs => ?_, fun hs => ?_, fun hs => ?_⟩, fun m v s => ?_⟩
  · have clear (w : Byte) := writeBy_interrupt (v := w) hs (r := .iflags0) rfl (by simp)
    simp only [State.applyWrite, clearFlags0_eq] at clear
    exact ⟨congrArg _ (clear v), congrArg _ (clear (v ||| 1#8))⟩
  · exact congrArg _ (writeBy_interrupt hs (r := .iflags1) rfl (by simp))
  · exact congrArg _ (writeBy_interrupt hs (r := .mbDoneMap) rfl (by simp))
  · exact congrArg _ (writeBy_interrupt hs (r := .fHitMap) rfl (by simp))
  · have judge (c : CounterReg) (hs : s.writeReady m (counterAddr c)) :
        (s.owns m (counterGroup c) → v = 0#8 →
          exec (.counterClear m c v) s = .next (((s.opened m).applyWrite m (counterReg c) v).closed m)) ∧
        (s.owns m (counterGroup c) → v ≠ 0#8 →
          exec (.counterClear m c v) s = .next (s.refusedWrite m (counterAddr c) .range)) ∧
        (¬s.owns m (counterGroup c) →
          exec (.counterClear m c v) s = .next (s.refusedWrite m (counterAddr c) .notOwner)) := by
      have hreg := regAt_counterAddr c
      have hclass := counter_writeClass c
      have hbusy := counter_not_busy c s m v
      exact ⟨fun ho hv => congrArg _ (writeBy_owned hs hreg hclass ho hbusy (by simp [counter_outOfRange, hv])
          (by cases c <;> nofun)),
        fun ho hv => congrArg _ (writeBy_range hs hreg hclass ho hbusy (by simp [counter_outOfRange, hv])),
        fun ho => congrArg _ (writeBy_not_owned hs hreg hclass ho)⟩
    cases m <;>
      exact ⟨judge .crcErr, judge .formErr, judge .collide, judge .unknown, judge .iqDrops, judge .mbDrops,
        judge .mbStales, judge .lDeny⟩

/-- Settles O47: the write that changes EN is the enabling or disabling of the link, the other changes RATE alone. -/
theorem linkEnableAndDisable : Obligations.LinkEnableAndDisable := by
  intro m v s hs o rate sameEn
  have hen : o.link.en = s.link.en := by cases m <;> rfl
  have hon : (withEn v).extractLsb' 1 2 = rate := withEn_field v 1 2 (by omega)
  have hoff : (withoutEn v).extractLsb' 1 2 = rate := withoutEn_field v 1 2 (by omega) (by omega)
  have accepted {w : Byte} (ho : s.owns m .link) (hw : s.linkOn = false ∨ w.extractLsb' 1 2 = s.link.rate) :
      writeBy m 0x20#8 w s = (o.writeLinkCtl w).closed m :=
    writeBy_owned hs (r := .linkCtl) rfl rfl ho (linkCtl_not_busy hw) rfl nofun
  have busy {w : Byte} (ho : s.owns m .link) (hl : s.linkOn = true) (hw : w.extractLsb' 1 2 ≠ s.link.rate) :
      writeBy m 0x20#8 w s = s.refusedWrite m 0x20#8 .busy :=
    writeBy_busy hs (r := .linkCtl) rfl rfl ho (by simp [State.busy, hl, hw])
  refine ⟨fun ho hr => ⟨fun he => ⟨?_, ?_⟩, fun he => ⟨?_, ?_⟩⟩, fun ho hl hr => ⟨?_, ?_⟩, fun ho => ⟨?_, ?_⟩⟩
  · have hw := accepted (w := withEn v) ho (by rwa [hon])
    rw [writeLinkCtl_of_enable (withEn_bit v) (hen.trans he), hon] at hw
    cases m <;> exact congrArg _ hw
  · have hw := accepted (w := withoutEn v) ho (by rwa [hoff])
    rw [writeLinkCtl_of_same ((withoutEn_bit v).trans (hen.trans he).symm), hoff, withoutEn_bit] at hw
    exact congrArg _ hw
  · have hw := accepted (w := withEn v) ho (by rwa [hon])
    rw [writeLinkCtl_of_same ((withEn_bit v).trans (hen.trans he).symm), hon, withEn_bit] at hw
    exact congrArg _ hw
  · have hw := accepted (w := withoutEn v) ho (by rwa [hoff])
    rw [writeLinkCtl_of_disable (withoutEn_bit v) (hen.trans he), hoff,
      disableLink_eq s _ (by cases m <;> rfl) (by cases m <;> rfl)] at hw
    cases m <;> exact congrArg _ hw
  · exact congrArg _ (busy ho hl (by rwa [hon]))
  · exact congrArg _ (busy ho hl (by rwa [hoff]))
  · exact congrArg _ (writeBy_not_owned hs (r := .linkCtl) rfl rfl ho)
  · exact congrArg _ (writeBy_not_owned hs (r := .linkCtl) rfl rfl ho)

/-- Settles O51: SCANCTL by the change of EN, then SENSECTLn by the change of EN and the fields that may not change. -/
theorem inputEnables : Obligations.InputEnables := by
  refine ⟨fun m v s hs ho => ?_, fun m n v e s hs ho hcode hdeb => ?_⟩
  · intro o up released
    have hen : o.ks = s.ks := by cases m <;> rfl
    have hlm : o.lm = s.lm := by cases m <;> rfl
    have hforced : o.ks.forcedEvents = released := by rw [hen, forcedEvents_eq]
    have accepted (w : Byte) : writeBy m 0x90#8 w s = (o.writeScanCtl w).closed m :=
      writeBy_owned hs (r := .scanCtl) rfl rfl ho rfl rfl nofun
    have hon := accepted (withEn v)
    have hoff := accepted (withoutEn v)
    have h1 : (withEn v).getLsbD 1 = v.getLsbD 1 := withEn_bit_above v (by omega)
    have h1' : (withoutEn v).getLsbD 1 = v.getLsbD 1 := withoutEn_bit_above v (by omega) (by omega)
    refine ⟨fun he => ⟨?_, ?_⟩, fun he => ⟨?_, ?_⟩⟩
    · rw [writeScanCtl_of_enable (withEn_bit v) (by rw [hen, he]), h1, hen] at hon
      exact congrArg _ hon
    · rw [writeScanCtl_of_same (by rw [withoutEn_bit, hen, he]), h1'] at hoff
      exact congrArg _ hoff
    · rw [writeScanCtl_of_same (by rw [withEn_bit, hen, he]), h1] at hon
      exact congrArg _ hon
    · rw [writeScanCtl_of_disable (withoutEn_bit v) (by rw [hen, he]), h1', hforced, hen, hlm] at hoff
      exact congrArg _ hoff
  · intro i input written fresh
    have hreg := regAt_senseCtl n
    have hedge : e ≠ i.edge → v.extractLsb' 1 2 ≠ i.edge.code.setWidth 2 :=
      fun hne h => hne (edge_code_inj (hcode.trans h))
    have accepted {w : Byte} (hw1 : w.extractLsb' 1 2 = v.extractLsb' 1 2) (hw4 : w.extractLsb' 4 4 = v.extractLsb' 4 4)
        (hb : i.en = false ∨ (v.extractLsb' 1 2 = i.edge.code.setWidth 2 ∧ v.extractLsb' 4 4 = i.debounce)) :
        writeBy m (0xA0#8 + BitVec.ofNat 8 n.val) w s = (input (i.configure w)).closed m := by
      have hw := writeBy_owned (v := w) hs hreg rfl ho (senseCtl_not_busy (by rwa [hw1, hw4]))
        (senseCtl_inRange (hcode.trans hw1.symm) (by rwa [hw4])) nofun
      exact hw.trans (by cases m <;> rfl)
    have busy {w : Byte} (hw1 : w.extractLsb' 1 2 = v.extractLsb' 1 2) (hw4 : w.extractLsb' 4 4 = v.extractLsb' 4 4)
        (he : i.en = true) (hv : e ≠ i.edge ∨ v.extractLsb' 4 4 ≠ i.debounce) :
        writeBy m (0xA0#8 + BitVec.ofNat 8 n.val) w s = s.refusedWrite m (0xA0#8 + BitVec.ofNat 8 n.val) .busy :=
      writeBy_busy hs hreg rfl ho (senseCtl_busy he (by rw [hw1, hw4]; exact hv.imp_left hedge))
    have h1 := withEn_field v 1 2 (by omega)
    have h4 := withEn_field v 4 4 (by omega)
    have h1' := withoutEn_field v 1 2 (by omega) (by omega)
    have h4' := withoutEn_field v 4 4 (by omega) (by omega)
    have h3 : (withEn v).getLsbD 3 = v.getLsbD 3 := withEn_bit_above v (by omega)
    have h3' : (withoutEn v).getLsbD 3 = v.getLsbD 3 := withoutEn_bit_above v (by omega) (by omega)
    have hcode' : edgeOf (v.extractLsb' 1 2) = e := by rw [← hcode, edgeOf_code]
    refine ⟨fun he => ⟨?_, ?_⟩, fun he hsame hd => ⟨?_, ?_⟩, fun he hv => ⟨?_, ?_⟩⟩
    · have hw := accepted h1 h4 (.inl he)
      rw [configure_of_change (by rw [withEn_bit, he]; nofun), withEn_bit, h1, h3, h4, hcode'] at hw
      exact congrArg _ hw
    · have hw := accepted h1' h4' (.inl he)
      rw [configure_of_same (by rw [withoutEn_bit, he]), withoutEn_bit, h1', h3', h4', hcode'] at hw
      exact congrArg _ hw
    · have hw := accepted h1 h4 (.inr ⟨by rw [← hcode, hsame], hd⟩)
      rw [configure_of_same (by rw [withEn_bit, he]), withEn_bit, h1, h3, h4, hcode'] at hw
      exact congrArg _ hw
    · have hw := accepted h1' h4' (.inr ⟨by rw [← hcode, hsame], hd⟩)
      rw [configure_of_change (by rw [withoutEn_bit, he]; nofun), withoutEn_bit, h1', h3', h4', hcode'] at hw
      exact congrArg _ hw
    · exact congrArg _ (busy h1 h4 he hv)
    · exact congrArg _ (busy h1' h4' he hv)

end Sys2Proof.Proofs

/-! SUPPORT. The bytes of an SPI transaction, and the statements on transactions. -/

namespace Sys2Proof.Machine

theorem awake_of_not_asleep {s : State} (h : ¬(s.pr.state = .sleep ∨ s.pr.state = .waking)) : s.awake = true := by
  revert h
  unfold State.awake
  cases s.pr.state <;> simp [PowerState.awake]

theorem not_awake_of_asleep {s : State} (h : s.pr.state = .sleep ∨ s.pr.state = .waking) : s.awake = false :=
  h.elim awake_of_sleep awake_of_waking

theorem commandOf_unassigned (a : Bool) {b : Byte} (h0 : b ≠ 0xA0#8) (h1 : b ≠ 0xA1#8) (h8 : b ≠ 0xA8#8)
    (hF : b ≠ 0xAF#8) : commandOf a b = (.unassigned, .ignore) := by simp [commandOf, h0, h1, h8, hF]

/-- A command byte that leads to IGNORE and requests no wake (R5). -/
theorem commandByte_of_ignore {b : Byte} {s : State} {c : HostCommand} (h : commandOf s.awake b = (c, .ignore))
    (hb : b ≠ 0xAF#8) : s.commandByte b = { s with hp.command := c, hp.phase := .ignore, hp.out := 0xFF#8 } := by
  rw [commandByte_eq, if_neg hb, h, loadOut_of_ignore rfl]
  rfl

/-- A command byte that is followed by an address or by STATUS bytes (R5). -/
theorem commandByte_of_status {b : Byte} {s : State} {c : HostCommand} {p : Phase} (h : commandOf s.awake b = (c, p))
    (hb : b ≠ 0xAF#8) (hp : p ≠ .ignore) (hr : p ≠ .readData) :
    s.commandByte b = { s with hp.command := c, hp.phase := p, hp.out := s.statusByte } := by
  rw [commandByte_eq, if_neg hb, h, loadOut_of_status hp hr]
  rfl

/-- WAKE in SLEEP (R189). -/
theorem commandByte_wake_of_sleep {s : State} (h : s.pr.state = .sleep) : s.commandByte 0xAF#8 = { s with
    hp.command := .wake, hp.phase := .ignore, hp.out := 0xFF#8
    pr := { s.pr with state := .waking, request := some (.host, 0), wakeTicks := 0 }
    ks := { s.ks with clock := 0, due := false } } := by
  have hs : (s.setCommand (commandOf s.awake 0xAF#8).1 (commandOf s.awake 0xAF#8).2).pr.state = .sleep := h
  rw [commandByte_eq, if_pos rfl, requestWake_of_sleep _ _ hs, loadOut_of_ignore rfl]
  rfl

/-- WAKE elsewhere does nothing else than any other command that leads to IGNORE. -/
theorem commandByte_wake_of_not_sleep {s : State} (h : s.pr.state ≠ .sleep) :
    s.commandByte 0xAF#8 = { s with hp.command := .wake, hp.phase := .ignore, hp.out := 0xFF#8 } := by
  have hs : (s.setCommand (commandOf s.awake 0xAF#8).1 (commandOf s.awake 0xAF#8).2).pr.state ≠ .sleep := h
  rw [commandByte_eq, if_pos rfl, requestWake_of_not_sleep _ _ hs, loadOut_of_ignore rfl]
  rfl

theorem requestWake_pins (c : WakeCause) (detail : Byte) (s : State) : (s.requestWake c detail).pins = s.pins := by
  rw [requestWake_eq]

theorem commandByte_pins (b : Byte) (s : State) : (s.commandByte b).pins = s.pins := by
  rw [commandByte_eq, loadOut_pins]
  split
  · exact requestWake_pins ..
  · rfl

theorem addressByte_pins (b : Byte) (s : State) : (s.addressByte b).pins = s.pins := loadOut_pins _

theorem addressByte_of_write {b : Byte} {s : State} (h : s.hp.command = .write) :
    s.addressByte b = { s with hp.pointer := b, hp.phase := .writeData, hp.out := s.statusByte } := by
  simp only [State.addressByte, h]
  exact loadOut_of_status nofun nofun

theorem addressByte_of_read {b : Byte} {s : State} (h : s.hp.command = .read) :
    s.addressByte b = { s with hp.pointer := b, hp.phase := .turnaround, hp.out := s.statusByte } := by
  simp only [State.addressByte, h]
  exact loadOut_of_status nofun nofun

end Sys2Proof.Machine

namespace Sys2Proof.Proofs

open Sys2Proof.Machine

/-- Settles O38: each byte in its phase by the command or phase that it leads to, then the edges of CSN. -/
theorem spiTransactions : Obligations.SpiTransactions := by
  refine ⟨fun s h => ?_, fun b s => ⟨fun h => ⟨fun hw => ?_, fun hr => ?_⟩, fun h => ?_, fun h => ?_, fun h hc => ?_,
    fun h hc => ?_⟩⟩
  · intro goes asleep
    have byte (b : Byte) : onEvent (State.inPhase .awaitCommand) (State.commandByte b) s = s.commandByte b :=
      onEvent_inPhase h (commandByte_pins b s)
    have unassigned {b : Byte} (hc : commandOf s.awake b = (.unassigned, .ignore)) (hb : b ≠ 0xAF#8) :
        onEvent (State.inPhase .awaitCommand) (State.commandByte b) s = goes .unassigned .ignore 0xFF#8 :=
      (byte b).trans (commandByte_of_ignore hc hb)
    refine ⟨fun ha => ?_, fun ha => ?_, fun ha => ⟨?_, ?_⟩, ?_, fun hs => ?_, fun hs => ?_, fun b h0 h1 h8 hF => ?_⟩
    · exact congrArg _ ((byte _).trans
        (commandByte_of_status (c := .write) (p := .awaitAddress) (by rw [awake_of_not_asleep ha]; rfl) (by decide)
          nofun nofun))
    · exact congrArg _ ((byte _).trans
        (commandByte_of_status (c := .read) (p := .awaitAddress) (by rw [awake_of_not_asleep ha]; rfl) (by decide)
          nofun nofun))
    · exact congrArg _ (unassigned (by rw [not_awake_of_asleep ha]; rfl) (by decide))
    · exact congrArg _ (unassigned (by rw [not_awake_of_asleep ha]; rfl) (by decide))
    · exact congrArg _ ((byte _).trans
        (commandByte_of_status (c := .status) (p := .statusStream) rfl (by decide) nofun nofun))
    · exact congrArg _ ((byte _).trans (commandByte_wake_of_not_sleep hs))
    · exact congrArg _ ((byte _).trans (commandByte_wake_of_sleep hs))
    · exact congrArg _ (unassigned (commandOf_unassigned _ h0 h1 h8 hF) hF)
  · exact congrArg _ ((onEvent_inPhase h (addressByte_pins b s)).trans (addressByte_of_write hw))
  · exact congrArg _ ((onEvent_inPhase h (addressByte_pins b s)).trans (addressByte_of_read hr))
  · refine congrArg _ ((onEvent_inPhase h (loadOut_pins _)).trans (loadOut_of_status ?_ ?_)) <;> simp [h.2.2]
  · exact congrArg _ ((onEvent_inPhase h (loadOut_pins _)).trans (loadOut_of_ignore h.2.2))
  · simp only [exec, execCsnRise, h.running, Bool.false_eq_true, if_false]
    exact congrArg _ (Ready.onEvent_of_due h hc)
  · simp only [exec, execCsnFall, h.running, Bool.false_eq_true, if_false]
    exact congrArg _ (Ready.onMoment_of_due h (by simp [hc]))

end Sys2Proof.Proofs

/-! SUPPORT. What every address reads, field by field, and what a capture holds. -/

namespace Sys2Proof.Machine

/-! ### A byte made of fields -/

theorem fieldAt_four : ∀ v : BitVec 4, fieldAt v 0 = 0#4 ++ v := by decide
theorem fieldAt_five : ∀ v : BitVec 5, fieldAt v 0 = 0#3 ++ v := by decide
theorem fieldAt_six : ∀ v : BitVec 6, fieldAt v 0 = 0#2 ++ v := by decide

/-- Two switches at bits 1 and 0: SCANCTL. -/
theorem bit_or_bit : ∀ a b : Bool, bit a 0 ||| bit b 1 = 0#6 ++ BitVec.ofBool b ++ BitVec.ofBool a := by decide

theorem bit_or_fieldAt : ∀ (en : Bool) (rate : BitVec 2),
    bit en 0 ||| fieldAt rate 1 = 0#5 ++ rate ++ BitVec.ofBool en := by decide

theorem fieldAt_or_fieldAt : ∀ d e : BitVec 3, fieldAt d 4 ||| fieldAt e 0 = 0#1 ++ d ++ 0#1 ++ e := by decide

theorem strapsByte_eq (p : Straps) : strapsByte p = p.rate ++ BitVec.ofBool p.hostless ++ p.addr := by
  have fields : ∀ (r : BitVec 2) (h : Bool) (a : BitVec 5),
      fieldAt a 0 ||| bit h 5 ||| fieldAt r 6 = r ++ BitVec.ofBool h ++ a := by decide
  exact fields ..

theorem powerStat_eq (p : Power) : p.powerStat = 0#1 ++ BitVec.ofBool p.woken ++
    (match p.cause with | .key => 0#2 | .sense => 1#2 | .link => 2#2 | .host => 3#2) ++ 0#1 ++
    (match p.state with | .run => 0#3 | .doze => 1#3 | .settling => 2#3 | .sleep => 3#3 | .waking => 4#3) := by
  unfold Power.powerStat
  generalize p.woken = w
  cases p.state <;> cases p.cause <;> revert w <;> decide

theorem fctl_eq (f : Filter) : f.fctl = 0#4 ++ BitVec.ofBool f.notify ++
    (match f.action with | .queue => 0#2 | .lamp => 1#2 | .both => 2#2 | .discard => 3#2) ++ BitVec.ofBool f.en := by
  unfold Filter.fctl
  generalize f.notify = n, f.en = e
  cases f.action <;> revert n e <;> decide

theorem mbState_eq (b : Mailbox) : b.mbState = 0#4 ++ BitVec.ofBool b.cancelPending ++ BitVec.ofBool b.running ++
    (match b.state with | .empty => 0#2 | .ready => 1#2 | .offered => 2#2) := by
  unfold Mailbox.mbState
  generalize b.cancelPending = c, b.running = r
  cases b.state <;> revert c r <;> decide

theorem senseCtl_eq (i : SenseInput) : i.senseCtl = i.debounce ++ BitVec.ofBool i.wake ++
    (match i.edge with | .rise => 0#2 | .fall => 1#2 | .both => 2#2) ++ BitVec.ofBool i.en := by
  unfold SenseInput.senseCtl
  generalize i.debounce = d, i.wake = w, i.en = e
  cases i.edge <;> revert d w e <;> decide

theorem levels_eq (st : Sense) : st.levels = 0#4 ++ BitVec.ofBool st.inputs[3].level ++ BitVec.ofBool st.inputs[2].level ++
    BitVec.ofBool st.inputs[1].level ++ BitVec.ofBool st.inputs[0].level := by
  have fields : ∀ a b c d : Bool, bit a 0 ||| bit b 1 ||| bit c 2 ||| bit d 3 =
      0#4 ++ BitVec.ofBool d ++ BitVec.ofBool c ++ BitVec.ofBool b ++ BitVec.ofBool a := by decide
  exact fields ..

theorem lstate_eq (l : Lamp) : l.lstate = l.level ++
    (match l.phase with
      | .off => 0#4 | .on => 9#4 | .blinkLit => 10#4 | .blinkDark => 3#4
      | .pulseWait => 4#4 | .pulseLit => 13#4 | .followLit => 14#4 | .followDark => 7#4) := by
  unfold Lamp.lstate
  generalize l.level = v
  cases l.phase <;> revert v <;> decide

/-! ### Counts -/

theorem suspectKeys_eq (ks : Scanner) :
    ((List.finRange 48).filter fun k => ks.keys[k].state = .suspect).length = ks.suspectKeys := by
  rw [Scanner.suspectKeys, List.countP_eq_length_filter]
  congr 2

/-! ### Level flags (R178) -/

theorem jrnl_eq (s : State) : s.jrnl = s.jr.list.any (·.wantLocal) := by
  rw [Bool.eq_iff_iff, State.jrnl, Journal.localCount, decide_eq_true_iff, List.countP_pos_iff, List.any_eq_true]

theorem inbox_eq (s : State) : s.inbox = !s.ib.queue.isEmpty := by
  rw [State.inbox]
  cases s.ib.queue <;> rfl

theorem iflags1_bit (s : State) (i : Nat) (hi : i < 8) : s.iflags1.getLsbD i =
    (s.ia.flags1.getLsbD i && decide (i < 6) || s.jrnl && decide (i = 7) || s.inbox && decide (i = 6)) := by
  have mask : (0x3F#8).getLsbD i = decide (i < 6) := by interval_cases i <;> rfl
  simp only [State.iflags1, BitVec.getLsbD_or, BitVec.getLsbD_and, mask, bit_getLsb _ _ _ hi (by decide : 7 < 8),
    bit_getLsb _ _ _ hi (by decide : 6 < 8)]

/-! ### The runs of Table 1-1 -/

theorem regAt_localTime : ∀ i : Fin 4, regAt (0x0C#8 + BitVec.ofNat 8 i.val) = .localTime i := by decide
theorem regAt_jwindow : ∀ i : Fin 7, regAt (0x38#8 + BitVec.ofNat 8 i.val) = .jwindow i := by decide
theorem regAt_iqwindow : ∀ i : Fin 22, regAt (0x44#8 + BitVec.ofNat 8 i.val) = .iqwindow i := by decide
theorem regAt_mbPeriod : ∀ i : Fin 2, regAt (0x6F#8 + BitVec.ofNat 8 i.val) = .mbPeriod i := by decide
theorem regAt_mbData : ∀ i : Fin 16, regAt (0x71#8 + BitVec.ofNat 8 i.val) = .mbData i := by decide
theorem regAt_keymap : ∀ i : Fin 6, regAt (0x98#8 + BitVec.ofNat 8 i.val) = .keymap i := by decide

/-- Beyond the runs of Table 1-1 no register is assigned. -/
theorem regAt_beyond : ∀ a : Byte, (0x81 ≤ a.toNat ∧ a.toNat ≤ 0x8F) ∨ (0xA5 ≤ a.toNat ∧ a.toNat ≤ 0xAF) ∨ 0xBC ≤ a.toNat →
    regAt a = .unassigned := by decide

/-- Nothing can be read at a command register and at no address of Table 1-1 that no register has (R9, R13). -/
def blankRegs : List Reg := [.restart, .jtake, .iqtake, .mbCmd, .lgo, .unassigned]

theorem readReg_blank {s : State} {m : Master} {r : Reg} (h : r ∈ blankRegs) : s.readReg m r = 0#8 := by
  simp only [blankRegs, List.mem_cons, List.not_mem_nil, or_false] at h
  obtain rfl | rfl | rfl | rfl | rfl | rfl := h <;> rfl

/-! ### The tables -/

theorem readTable (s : State) (m : Master) : s.ReadTable m (fun a => s.readReg m (regAt a)) where
  identity := ⟨rfl, rfl, rfl, rfl, rfl, rfl, rfl, rfl⟩
  power := ⟨strapsByte_eq _, rfl, powerStat_eq _⟩
  ownership := ⟨fieldAt_six _, fieldAt_six _⟩
  refusal := ⟨rfl, rfl, rfl⟩
  flags := ⟨rfl, (iflags1_bit s 7 (by decide)).trans (by simp [jrnl_eq]),
    (iflags1_bit s 6 (by decide)).trans (by simp [inbox_eq]),
    fun n => (iflags1_bit s n (by omega)).trans (by simp [n.isLt, show n.val ≠ 7 by omega, show n.val ≠ 6 by omega]),
    rfl, rfl, rfl, rfl⟩
  link := ⟨bit_or_fieldAt _ _, fieldAt_five _, rfl, by cases h : s.link.state <;> exact congrArg LinkState.code h,
    rfl, rfl, rfl, rfl, rfl⟩
  outbound := ⟨rfl, rfl, rfl⟩
  journal := ⟨rfl, fieldAt_six _, rfl, congrArg (BitVec.ofNat 8) List.countP_eq_length_filter,
    congrArg (BitVec.ofNat 8) List.countP_eq_length_filter, rfl⟩
  inbound := ⟨rfl, by cases h : s.ib.dflt <;> exact congrArg Action.code h, rfl⟩
  filter := by
    rintro f rfl
    exact ⟨fctl_eq _, rfl, fieldAt_six _⟩
  mailbox := by
    rintro b rfl
    refine ⟨mbState_eq _, rfl, rfl, rfl, rfl, fun i => ?_⟩
    exact congrArg (s.readReg m) (regAt_mbData i)
  scanner := ⟨bit_or_bit _ _, fieldAt_or_fieldAt _ _, rfl, rfl, rfl, rfl,
    congrArg (BitVec.ofNat 8) (countedKeys_eq s.ks).symm, congrArg (BitVec.ofNat 8) (suspectKeys_eq s.ks).symm⟩
  sense := ⟨fun n => (congrArg (s.readReg m) (regAt_senseCtl n)).trans (senseCtl_eq _), levels_eq _⟩
  lamp := by
    rintro l rfl
    refine ⟨?_, rfl, rfl, rfl, rfl, rfl, rfl, lstate_eq _⟩
    cases h : (s.lm.lamps[(s.copies m).lsel]).ctrl <;> exact congrArg Controller.code h
  denied := rfl
  copies := ⟨rfl, rfl, rfl, fieldAt_four _⟩
  snapshots := ⟨fun i => congrArg (s.readReg m) (regAt_localTime i), fun i => congrArg (s.readReg m) (regAt_jwindow i),
    fun i => congrArg (s.readReg m) (regAt_iqwindow i), fun i => congrArg (s.readReg m) (regAt_mbPeriod i),
    fun i => congrArg (s.readReg m) (regAt_keymap i)⟩
  nothing := fun a ha => readReg_blank ((by decide : ∀ a ∈ _, regAt a ∈ blankRegs) a ha)
  beyond := fun a ha => congrArg (s.readReg m) (regAt_beyond a ha)

/-! ### Captures (R14, R75, R125, R148) -/

theorem window_of_none {j : Journal} (h : j.presented = none) : j.window = List.replicate 7 0 := by
  rw [Journal.window, h]

theorem window_of_presented {j : Journal} {r : JRecord} (h : j.presented = some r) :
    j.window = [r.seq, r.kind.code, r.subject, r.detail, hiByte r.stamp, loByte r.stamp, j.presentedLoss] := by
  rw [Journal.window, h]

/-- The first `n` bytes of a run no longer than that are the run and as many zeros as it lacks. -/
theorem map_byteAt_range {bs : List Byte} {n : Nat} (h : bs.length ≤ n) :
    (List.range n).map (byteAt bs) = bs ++ List.replicate (n - bs.length) 0#8 := by
  refine List.ext_getElem (by simp; omega) fun i _ _ => ?_
  rw [List.getElem_map, List.getElem_range, byteAt, List.getD_eq_getElem?_getD, List.getElem_append]
  split
  next hi => rw [List.getElem?_eq_getElem hi, Option.getD_some]
  next hi => rw [List.getElem?_eq_none (by omega), Option.getD_none, List.getElem_replicate]

/-- The byte of the inbound window that holds the deciding entry, REMOTE and the broadcast bit (R125). -/
theorem infoByte_eq (b : Bool) {n : Nat} (h : n ≤ 8) :
    BitVec.ofNat 8 n ||| 0x40#8 ||| bit b 7 = BitVec.ofBool b ++ 1#1 ++ 0#2 ++ BitVec.ofNat 4 n := by
  interval_cases n <;> cases b <;> rfl

/-- Bit `b` of byte `n` of KEYMAP is bit `8n + b` of the set (R148). -/
theorem keymapBytes_bit (w : BitVec 48) (n : Fin 6) (b : Nat) (hb : b < 8) :
    (byteAt (keymapBytes w) n).getLsbD b = w.getLsbD (8 * n.val + b) := by
  fin_cases n <;> simp [keymapBytes, byteAt, hb]

theorem isCounted_iff (k : KeyState) : k.isCounted = true ↔ k = .down ∨ k = .long := by
  cases k <;> simp [KeyState.isCounted]

theorem captureTable (s : State) : s.CaptureTable where
  noRecord h := window_of_none (List.find?_eq_none.2 fun x hx => by simp [h x hx])
  record older newer r hl ho hr := by
    have hp : s.jr.presented = some r := by
      rw [Journal.presented, hl, List.find?_append, List.find?_eq_none.2 fun x hx => by simp [ho x hx],
        Option.none_or, List.find?_cons_of_pos hr]
    rw [window_of_presented hp]
    cases r.kind <;> rfl
  noDelivery h := by simp only [Inbound.window, h]; rfl
  delivery r rest hq hlen hfilt := by
    simp only [Inbound.window, hq]
    rw [map_byteAt_range hlen, infoByte_eq _ hfilt]
    rfl
  time := rfl
  keymap := ⟨rfl, fun n b k hk => by
    rw [keymapBytes_bit _ n b b.isLt, ← hk, downSet_bit, isCounted_iff]
    rfl⟩

end Sys2Proof.Machine

namespace Sys2Proof.Machine

/-! ### Bytes of a read (R7, R9, R15) -/

/-- Settling a capture changes a snapshot alone, never the field itself. -/
theorem settleCapture_content (s : State) (f : SnapField) : s.settleCapture.content .host f = s.content .host f := by
  rw [settleCapture_eq]
  cases f <;> rfl

theorem settleCapture_pins (s : State) : s.settleCapture.pins = s.pins := by rw [settleCapture_eq]

theorem settleCapture_hp (s : State) : s.settleCapture.hp = { s.hp with capture := none } := by
  rw [settleCapture_eq]

theorem fetch_pins (s : State) : s.fetch.pins = s.pins := by rw [fetch_eq]

/-- The state in which a byte is fetched: in READ_DATA at the address `a`. -/
def State.readingAt (a : Byte) (s : State) : State := { s with hp.phase := .readData, hp.pointer := a }

/-- A READ_DATA byte short of 0xFF fetches from the next address (R9). -/
theorem readByte_of_not_last {s : State} (h : s.hp.phase = .readData) (hp : s.hp.pointer ≠ 0xFF#8) :
    s.readByte = (s.settleCapture.readingAt (s.hp.pointer + 1)).fetch := by
  have hhp := settleCapture_hp s
  have hadv : s.settleCapture.advance = s.settleCapture.readingAt (s.hp.pointer + 1) := by
    rw [advance_of_not_last (by rw [hhp]; exact hp), State.readingAt, hhp, ← h]
  rw [State.readByte, hadv]
  exact if_pos rfl

/-- The READ_DATA byte of address 0xFF stops the transaction (R9). -/
theorem readByte_of_last {s : State} (hp : s.hp.pointer = 0xFF#8) :
    s.readByte = { s.settleCapture with hp.phase := .ignore, hp.out := 0xFF#8 } := by
  have hadv := advance_of_last (s := s.settleCapture) (by rw [settleCapture_hp]; exact hp)
  rw [State.readByte, hadv, if_neg nofun, loadOut_of_ignore rfl]

theorem readByte_pins (s : State) : s.readByte.pins = s.pins := by
  rw [State.readByte]
  split
  · rw [fetch_pins, advance_pins, settleCapture_pins]
  · rw [loadOut_pins, advance_pins, settleCapture_pins]

theorem exec_turnaround_of_ready (b : Byte) {s : State} (h : s.byteReady .turnaround) :
    exec (.turnaround b) s = .next (s.readingAt s.hp.pointer).fetch := by
  have hf : s.turnaroundByte.pins = s.pins := fetch_pins _
  exact congrArg Host.Outcome.next (onEvent_inPhase h hf)

theorem exec_readData_of_ready (b : Byte) {s : State} (h : s.byteReady .readData) :
    exec (.readData b) s = .next s.readByte := congrArg Host.Outcome.next (onEvent_inPhase h (readByte_pins s))

/-- A fetch at a capture address takes the field's content into a pending capture and shows its first byte (R7, R15). -/
theorem fetch_readingAt_of_capture {u : State} {a : Byte} {f : SnapField} (h : captureAt a = some f) :
    (u.readingAt a).fetch = { u with
      hp := { u.hp with
        phase := .readData, pointer := a, capture := some { field := f, bytes := u.content .host f }
        out := byteAt (u.content .host f) 0 } } := by
  rw [fetch_of_capture (f := f) h]
  cases f <;> rfl

theorem fetch_readingAt_of_plain {u : State} {a : Byte} (h : captureAt a = none) :
    (u.readingAt a).fetch =
      { u with hp := { u.hp with phase := .readData, pointer := a, out := u.readReg .host (regAt a) } } := by
  rw [fetch_of_plain h]
  have same : (u.readingAt a).readReg .host (regAt a) = u.readReg .host (regAt a) := by cases regAt a <;> rfl
  rw [show (u.readingAt a).hp.pointer = a from rfl, same]
  rfl

end Sys2Proof.Machine

namespace Sys2Proof.Proofs

open Sys2Proof.Machine

/-- Settles O39: the tables, then the fetch of a turnaround or READ_DATA byte by its address, and the stop past 0xFF. -/
theorem spiReads : Obligations.SpiReads := by
  refine ⟨fun s m => ⟨readTable s m, captureTable s⟩, fun b s => ?_⟩
  intro settled
  have hsettled : s.settleCapture = settled := by
    cases hc : s.hp.capture with
    | none => simp only [settled, State.settleCapture, hc]
    | some c =>
      obtain ⟨f, bytes⟩ := c
      simp only [settled, State.settleCapture, hc]
      cases f <;> rfl
  refine ⟨fun u a h => ?_, fun h hlast => ?_⟩
  · intro outcome captured
    obtain ⟨fetched, content⟩ :
        outcome = .next (u.readingAt a).fetch ∧ ∀ f, u.content .host f = s.content .host f := by
      obtain ⟨hs, rfl, rfl⟩ | ⟨hs, hlast, rfl, rfl⟩ := h
      · exact ⟨(if_pos hs.2.2).trans (exec_turnaround_of_ready b hs), fun _ => rfl⟩
      · refine ⟨(if_neg (by simp [hs.2.2])).trans ?_, fun f => hsettled ▸ settleCapture_content s f⟩
        rw [exec_readData_of_ready b hs, readByte_of_not_last hs.2.2 hlast, hsettled]
    have capture (f : SnapField) (ha : captureAt a = some f) : outcome = .next (captured f (s.content .host f)) := by
      rw [fetched, fetch_readingAt_of_capture ha, content]
    refine ⟨fun ha => capture .localTime (ha ▸ rfl), fun ha => capture .journal (ha ▸ rfl),
      fun ha => capture .inbound (ha ▸ rfl), fun ha => capture .mbPeriod (ha ▸ rfl), fun ha => capture .keymap (ha ▸ rfl),
      fun h0 h1 h2 h3 h4 => ?_⟩
    rw [fetched, fetch_readingAt_of_plain (by simp [captureAt_eq, h0, h1, h2, h3, h4])]
  · rw [exec_readData_of_ready b h, readByte_of_last hlast, hsettled]

end Sys2Proof.Proofs

/-! SUPPORT. A PEEK: the fields that its span captures, and the statement on it. -/

namespace Sys2Proof.Machine

/-! ### The captures of a span (R59) -/

/-- The capture address of field `f` lies in the span of `n` bytes from `addr`. -/
def inSpan (addr : Byte) (n : Nat) (f : SnapField) : Bool :=
  decide (addr.toNat ≤ f.span.1) && decide (f.span.1 < addr.toNat + n)

/-- A capture made under a condition replaces one snapshot under that condition. -/
theorem ite_install (c : Bool) (sn : Snapshots) (f : SnapField) (bs : List Byte) :
    (if c then sn.install f bs else sn) =
      match f with
      | .localTime => { sn with time := if c then bs else sn.time }
      | .journal => { sn with journal := if c then bs else sn.journal }
      | .inbound => { sn with inbound := if c then bs else sn.inbound }
      | .mbPeriod => { sn with period := if c then bs else sn.period }
      | .keymap => { sn with keymap := if c then bs else sn.keymap } := by
  cases c <;> cases f <;> rfl

theorem ite_installHead (c : Bool) (s : State) (f : SnapField) (bs : List Byte) :
    (if c then s.install .head f bs else s) =
      { s with head.snap := if c then s.head.snap.install f bs else s.head.snap } := by
  cases c <;> rfl

/-- A span takes the remote snapshot of each field whose capture address lies in it, and changes nothing else. -/
theorem captureSpan_eq (addr : Byte) (n : Nat) (s : State) : s.captureSpan addr n = { s with head.snap := {
    time := if inSpan addr n .localTime then s.content .head .localTime else s.head.snap.time
    journal := if inSpan addr n .journal then s.content .head .journal else s.head.snap.journal
    inbound := if inSpan addr n .inbound then s.content .head .inbound else s.head.snap.inbound
    period := if inSpan addr n .mbPeriod then s.content .head .mbPeriod else s.head.snap.period
    keymap := if inSpan addr n .keymap then s.content .head .keymap else s.head.snap.keymap } } := by
  have steps : s.captureSpan addr n =
      snapFields.foldl (fun acc f => if inSpan addr n f then acc.install .head f (s.content .head f) else acc) s :=
    List.foldl_filter
  rw [steps]
  simp only [snapFields, List.foldl_cons, List.foldl_nil, ite_installHead, ite_install]

/-! ### The reply (R58, R59) -/

theorem exec_peek_of_ready {addr count : Byte} {s : State} (hs : s.frameReady) (ha : s.awake = true) (hd : s.addressed)
    (hj : s.link.state = .joined) : exec (.peek addr count) s = .next (s.heard.servePeek addr count).endOfStep := by
  simp only [exec, execPeek]
  rw [frameEvent_unicast hs ha hd (by simp) rfl (by simp [Frame.bodyOk])]
  simp [State.dispatch, heard_joined hj, byteAt]

theorem endOfStep_reply (kind : FrameKind) (tn : BitVec 3) (front back : List Byte) (s : State) :
    (s.reply kind tn front back).endOfStep = s.reply kind tn front back := endOfStep_of_busy _ nofun

theorem peekFails_iff (addr count : Byte) : peekFails addr count = true ↔
    count = 0#8 ∨ 16 < count.toNat ∨ 0xFF < addr.toNat + count.toNat - 1 := by
  simp [peekFails, pastEnd, or_assoc]

end Sys2Proof.Machine

namespace Sys2Proof.Proofs

open Sys2Proof.Machine

/-- Settles O36: a PEEK that fails is answered RANGE; another answers the bytes of its span after its captures. -/
theorem peek : Obligations.Peek := by
  intro addr count s hs ha hd hj covers box u
  rw [exec_peek_of_ready hs ha hd hj]
  refine ⟨fun hf => ?_, fun h1 h16 hlast => ?_⟩
  · rw [State.servePeek, if_pos ((peekFails_iff addr count).2 hf)]
    exact congrArg _ (endOfStep_reply ..)
  · have accepted : ¬peekFails addr count = true := by
      rw [peekFails_iff]
      rintro (rfl | h | h)
      · simp at h1
      · omega
      · omega
    have captured : s.heard.captureSpan addr count.toNat = u := by
      rw [captureSpan_eq]
      simp only [u, covers, inSpan, Bool.decide_and]
      rfl
    rw [State.servePeek, if_neg accepted]
    simp only [captured]
    rw [endOfStep_reply]
    simp only [State.reply, List.append_nil]
    rfl

end Sys2Proof.Proofs

/-! SUPPORT. The STATUS byte, the digest and the output pins, field by field, and the statement on them. -/

namespace Sys2Proof.Machine

/-! ### Flags and IRQN (R178, R181) -/

theorem jrnl_iff (s : State) : s.jrnl = true ↔ ∃ r ∈ s.jr.list, r.wantLocal = true := by
  rw [jrnl_eq, List.any_eq_true]

theorem inbox_iff (s : State) : s.inbox = true ↔ s.ib.queue ≠ [] := by
  rw [inbox_eq]
  cases s.ib.queue <;> simp

theorem iflags1_jrnl (s : State) : s.iflags1.getLsbD 7 = s.jrnl := by
  rw [iflags1_bit s 7 (by decide)]
  simp

theorem iflags1_inbox (s : State) : s.iflags1.getLsbD 6 = s.inbox := by
  rw [iflags1_bit s 6 (by decide)]
  simp

theorem iflags1_event (s : State) (n : Fin 6) : s.iflags1.getLsbD n.val = s.ia.flags1.getLsbD n.val := by
  simp [iflags1_bit s n (by omega), show n.val ≠ 7 by omega, show n.val ≠ 6 by omega]

theorem byte_bne_zero : ∀ x : Byte, (x != 0#8) = true ↔ ∃ n : Fin 8, x.getLsbD n.val = true := by decide

theorem enabled_iff (flags enable : Byte) : (flags &&& enable != 0#8) = true ↔
    ∃ n : Fin 8, flags.getLsbD n.val = true ∧ enable.getLsbD n.val = true := by
  simp only [byte_bne_zero, BitVec.getLsbD_and, Bool.and_eq_true]

theorem irqAsserted_iff (s : State) : s.irqAsserted = true ↔ s.held = false ∧
    ∃ n : Fin 8, (s.ia.flags0.getLsbD n.val = true ∧ s.ia.enable0.getLsbD n.val = true) ∨
      (s.iflags1.getLsbD n.val = true ∧ s.ia.enable1.getLsbD n.val = true) := by
  rw [exists_or, ← enabled_iff, ← enabled_iff, State.irqAsserted, Bool.and_eq_true, Bool.or_eq_true, Bool.not_eq_true']

/-! ### The STATUS byte (R182) -/

/-- The power field of the STATUS byte and of the digest. -/
def PowerState.field : PowerState → BitVec 2
  | .run => 0 | .doze => 1 | .settling => 2 | .sleep => 3 | .waking => 2

theorem statusByte_eq (s : State) : s.statusByte =
    BitVec.ofBool s.irqAsserted ++ BitVec.ofBool s.jrnl ++ BitVec.ofBool s.inbox ++
      BitVec.ofBool (s.link.state == .joined) ++ s.pr.state.field ++ BitVec.ofBool (s.ia.flags0.getLsbD 0) ++
      BitVec.ofBool (s.ia.flags1.getLsbD 4) := by
  have fields : ∀ (irq jrnl inbox joined refused lost : Bool),
      bit irq 7 ||| bit jrnl 6 ||| bit inbox 5 ||| bit joined 4 ||| (s.pr.state.statusCode <<< 2) ||| bit refused 1 |||
        bit lost 0 =
      BitVec.ofBool irq ++ BitVec.ofBool jrnl ++ BitVec.ofBool inbox ++ BitVec.ofBool joined ++ s.pr.state.field ++
        BitVec.ofBool refused ++ BitVec.ofBool lost := by
    cases s.pr.state <;> decide
  exact fields ..

/-- The fields of a byte laid out as the STATUS byte is. -/
theorem statusLayout : ∀ (irq jrnl inbox joined refused lost : Bool) (p : BitVec 2),
    let b : Byte := BitVec.ofBool irq ++ BitVec.ofBool jrnl ++ BitVec.ofBool inbox ++ BitVec.ofBool joined ++ p ++
      BitVec.ofBool refused ++ BitVec.ofBool lost
    b.getLsbD 7 = irq ∧ b.getLsbD 6 = jrnl ∧ b.getLsbD 5 = inbox ∧ b.getLsbD 4 = joined ∧ b.extractLsb' 2 2 = p ∧
      b.getLsbD 1 = refused ∧ b.getLsbD 0 = lost := by decide

theorem statusByte_fields (s : State) : s.statusByte.getLsbD 7 = s.irqAsserted ∧ s.statusByte.getLsbD 6 = s.jrnl ∧
    s.statusByte.getLsbD 5 = s.inbox ∧ s.statusByte.getLsbD 4 = (s.link.state == .joined) ∧
    s.statusByte.extractLsb' 2 2 = s.pr.state.field ∧ s.statusByte.getLsbD 1 = s.ia.flags0.getLsbD 0 ∧
    s.statusByte.getLsbD 0 = s.ia.flags1.getLsbD 4 := by
  rw [statusByte_eq]
  exact statusLayout ..

/-! ### The digest (R184) -/

/-- A count below 128 with a bit above it: D0. -/
theorem countAndBit : ∀ (n : Fin 128) (b : Bool),
    ((BitVec.ofNat 8 n.val ||| bit b 7).extractLsb' 0 7).toNat = n.val ∧
      (BitVec.ofNat 8 n.val ||| bit b 7).getLsbD 7 = b := by decide

theorem waitingRemote_eq (j : Journal) :
    j.waitingRemote = (j.list.filter fun r => r.wantRemote && !r.pinned).length := List.countP_eq_length_filter

theorem waitingRemote_le (j : Journal) : j.waitingRemote ≤ j.list.length := List.countP_le_length

/-- Digest byte D1, field by field: the free records, the power field, HOSTLESS and IRQN. -/
theorem digest1_fields (s : State) :
    (s.digest1.extractLsb' 0 4).toNat = 12 - s.ib.queue.length ∧ s.digest1.extractLsb' 4 2 = s.pr.state.field ∧
      s.digest1.getLsbD 6 = s.pr.straps.hostless ∧ s.digest1.getLsbD 7 = s.irqAsserted := by
  have layout : ∀ (p : PowerState) (n : Fin 13) (hostless irq : Bool),
      let b : Byte := BitVec.ofNat 8 n.val ||| (p.statusCode <<< 4) ||| bit hostless 6 ||| bit irq 7
      (b.extractLsb' 0 4).toNat = n.val ∧ b.extractLsb' 4 2 = p.field ∧ b.getLsbD 6 = hostless ∧ b.getLsbD 7 = irq := by
    intro p
    cases p <;> decide
  exact layout s.pr.state ⟨12 - s.ib.queue.length, by omega⟩ _ _

/-- Digest byte D2, bit by bit. -/
theorem digest2_bit (s : State) (i : Nat) (hi : i < 8) : s.digest2.getLsbD i =
    (s.ob.readyMap.getLsbD i || s.st.timeSet && decide (i = 6) || s.own.rlock != 0#6 && decide (i = 7)) := by
  simp only [State.digest2, BitVec.getLsbD_or, bit_getLsb _ _ _ hi (by decide : 6 < 8),
    bit_getLsb _ _ _ hi (by decide : 7 < 8)]

/-! ### The output pins (R132, R163) -/

theorem awake_iff (s : State) :
    s.awake = true ↔ s.pr.state = .run ∨ s.pr.state = .doze ∨ s.pr.state = .settling := by
  unfold State.awake
  cases s.pr.state <;> simp [PowerState.awake]

theorem lit_iff (p : LampPhase) : p.lit = true ↔ p = .on ∨ p = .blinkLit ∨ p = .pulseLit ∨ p = .followLit := by
  cases p <;> simp [LampPhase.lit]

theorem lampDuty_of_lit {s : State} {n : Fin 12} (h : s.held = false) (ha : s.awake = true)
    (hl : s.lm.lamps[n].phase.lit = true) : s.lampDuty n = s.lm.lamps[n].level.toNat := by
  rw [State.lampDuty, ha, h, hl]
  rfl

theorem lampDuty_of_dark {s : State} {n : Fin 12} (h : ¬s.awake = true ∨ ¬s.lm.lamps[n].phase.lit = true) :
    s.lampDuty n = 0 := by
  refine if_neg fun hc => ?_
  simp only [Bool.and_eq_true] at hc
  exact h.elim (· hc.1.1) (· hc.2)

theorem driveInUse_iff {s : State} (h : s.held = false) (d : Fin 8) : s.driveInUse d = true ↔
    s.ks.en = true ∧ d.val < s.ks.drives.toNat + 1 ∧
      (s.pr.state = .run ∨ s.pr.state = .doze ∨ s.pr.state = .settling ∨
        (s.pr.state = .sleep ∧ s.ks.sleepWake = true)) := by
  have clocked : (s.awake || (s.pr.state == .sleep && s.ks.sleepWake)) = true ↔ s.pr.state = .run ∨ s.pr.state = .doze ∨
      s.pr.state = .settling ∨ (s.pr.state = .sleep ∧ s.ks.sleepWake = true) := by
    rw [Bool.or_eq_true, awake_iff, Bool.and_eq_true, beq_iff_eq, or_assoc, or_assoc]
  rw [State.driveInUse, Bool.and_eq_true, Bool.and_eq_true, Bool.and_eq_true, clocked, decide_eq_true_iff, ← Nat.lt_succ_iff]
  simp only [h, Bool.not_false, true_and]
  exact ⟨fun ⟨⟨he, hc⟩, hd⟩ => ⟨he, hd, hc⟩, fun ⟨he, hd, hc⟩ => ⟨⟨he, hc⟩, hd⟩⟩

end Sys2Proof.Machine

namespace Sys2Proof.Proofs

open Sys2Proof.Machine

/-- Settles O40: each flag, field and pin by the lemma on its byte's layout. -/
theorem statusAndDigest : Obligations.StatusAndDigest := by
  intro s
  obtain ⟨hirq, hjrnl, hinbox, hjoined, hpower, hrefused, hlost⟩ := statusByte_fields s
  obtain ⟨hfree, hfield, hhostless, hpin⟩ := digest1_fields s
  have waiting (h : s.jr.list.length ≤ 64) := countAndBit
    ⟨s.jr.waitingRemote, by have := waitingRemote_le s.jr; omega⟩ (s.jr.remoteLost != 0#8)
  refine ⟨by rw [iflags1_jrnl, jrnl_iff], by rw [iflags1_inbox, inbox_iff], iflags1_event s, irqAsserted_iff s, hirq,
    by rw [hjrnl, iflags1_jrnl], by rw [hinbox, iflags1_inbox], by rw [hjoined, beq_iff_eq], ?_, hrefused, hlost,
    fun h => (waiting h).1.trans (waitingRemote_eq s.jr), fun h => ?_, hfree, hfield.trans hpower.symm, hhostless, hpin,
    fun i => ?_, ?_, ?_, fun hheld => ⟨fun hc => ?_, fun hc => ?_, fun n => ?_, fun d => ?_⟩⟩
  · rw [hpower]
    cases s.pr.state <;> rfl
  · rw [show s.digest0.getLsbD 7 = (s.jr.remoteLost != 0#8) from (waiting h).2, bne_iff_ne]
  · rw [digest2_bit s i (by omega), readyMap_bit s.ob i (by omega), dif_pos i.isLt]
    simp [show i.val ≠ 6 by omega, show i.val ≠ 7 by omega]
  · rw [digest2_bit s 6 (by decide), readyMap_bit s.ob 6 (by decide)]
    simp
  · rw [digest2_bit s 7 (by decide), readyMap_bit s.ob 7 (by decide)]
    simp
  · simp [State.sdo, hc, hheld]
  · simp [State.sdo, hc]
  · intro l lit serves
    have hserves : serves ↔ s.awake = true := (awake_iff s).symm
    have hlit : lit ↔ l.phase.lit = true := (lit_iff l.phase).symm
    rw [hserves, hlit]
    exact ⟨lampDuty_of_lit hheld, lampDuty_of_dark⟩
  · exact driveInUse_iff hheld d

end Sys2Proof.Proofs

/-! SUPPORT. The link engine's conditions: which operations leave them alone, and how the others keep them in agreement. -/

namespace Sys2Proof.Machine

/-! ### What the link engine's conditions speak of -/

/-- The part of the state that the link engine's conditions speak of. -/
structure LinkCore where
  en : Bool
  addr : BitVec 5
  state : LinkState
  quiet : Quiet
  rx : RxCond
  tx : Transmitter
  awake : Bool

/-- These conditions' part of the state. -/
def State.linkCore (s : State) : LinkCore :=
  { en := s.link.en, addr := s.link.addr, state := s.link.state, quiet := s.link.quiet, rx := s.link.rx.cond
    tx := s.link.tx, awake := s.awake }

theorem linkCore_of_link {s t : State} (hl : t.link = s.link) (ha : t.awake = s.awake) : t.linkCore = s.linkCore := by
  simp only [State.linkCore, hl, ha]

theorem State.LinkSound.congr {s t : State} (h : s.LinkSound) (hc : t.linkCore = s.linkCore) : t.LinkSound := by
  simp only [State.linkCore, LinkCore.mk.injEq] at hc
  obtain ⟨hen, haddr, hstate, hquiet, hrx, htx, hawake⟩ := hc
  have hon : t.linkOn = s.linkOn := by simp only [State.linkOn, hstate]
  exact
    { enabled := by rw [hen, hon]; exact h.enabled
      address := by rw [haddr]; exact h.address
      halfDuplex := by rw [hrx, htx]; exact h.halfDuplex
      speaks := by rw [htx, hon, hstate]; exact h.speaks
      asleep := by rw [hawake, htx]; exact h.asleep
      quiet := by rw [hquiet, hstate]; exact h.quiet }

/-- With the transmitter idle only the link state, the address and the quiet-period timer are left to agree. -/
theorem linkSound_of_idle {s : State} (htx : s.link.tx = .idle) (hen : s.link.en = s.linkOn) (haddr : s.link.addr ≠ 31#5)
    (hquiet : s.link.quiet ≠ .stopped → s.link.state = .hushed) : s.LinkSound where
  enabled := hen
  address := haddr
  halfDuplex _ := htx
  speaks h := absurd htx h
  asleep _ := htx
  quiet := hquiet

/-- While the link is OFF there is no reply. -/
theorem State.LinkSound.idle_of_off {s : State} (h : s.LinkSound) (ho : s.linkOn = false) : s.link.tx = .idle := by
  by_contra htx
  exact absurd (h.speaks htx).1 (by simp [ho])

/-! ### Operations that leave them alone -/

@[simp] theorem raise0_linkCore (m : Byte) (s : State) : (s.raise0 m).linkCore = s.linkCore := rfl

@[simp] theorem updCopies_linkCore (m : Master) (f : Copies → Copies) (s : State) :
    (s.updCopies m f).linkCore = s.linkCore := by cases m <;> rfl

@[simp] theorem recordAll_linkCore (es : List Event) (s : State) : (s.recordAll es).linkCore = s.linkCore :=
  linkCore_of_link (by simp) (by simp [State.awake])

@[simp] theorem forcedRelease_linkCore (s : State) : s.forcedRelease.linkCore = s.linkCore := by
  rw [forcedRelease_eq]; rfl

@[simp] theorem returnToSource_linkCore (s : State) : s.returnToSource.linkCore = s.linkCore :=
  linkCore_of_link (by simp) (by simp [State.awake])

/-- A wake request leads from SLEEP to WAKING: the part serves no link in either (R189). -/
@[simp] theorem requestWake_linkCore (c : WakeCause) (detail : Byte) (s : State) :
    (s.requestWake c detail).linkCore = s.linkCore := by
  by_cases h : s.pr.state = .sleep
  · rw [requestWake_of_sleep c detail h]
    exact linkCore_of_link rfl (awake_of_sleep h).symm
  · rw [requestWake_of_not_sleep c detail h]

@[simp] theorem tickRefresh_linkCore (s : State) : s.tickRefresh.linkCore = s.linkCore := by
  unfold State.tickRefresh State.tickMailboxes
  dsimp only
  repeat' split
  all_goals rfl

@[simp] theorem tickLamps_linkCore (s : State) : s.tickLamps.linkCore = s.linkCore := by
  unfold State.tickLamps
  split
  · exact recordAll_linkCore _ _
  · rfl

@[simp] theorem tickSense_linkCore (sns : BitVec 4) (s : State) : (s.tickSense sns).linkCore = s.linkCore := by
  unfold State.tickSense
  split
  case h_4 =>
    split
    · exact requestWake_linkCore _ _ _
    · rfl
  case h_5 => rfl
  all_goals exact recordAll_linkCore _ _

theorem completeScan_linkCore (keys : BitVec 48) (s : State) : (s.completeScan keys).linkCore = s.linkCore := by
  by_cases hw : s.pr.state = .waking
  · rw [State.completeScan, hw]
  · rcases awake_or_sleep hw with ha | hs
    · rw [scan_exec keys s ha]; rfl
    · have h1 : State.linkCore { s with ks.clock := 0, ks.due := false, pins.switches := keys } = s.linkCore := rfl
      rw [State.completeScan, hs]
      unfold State.wakeScan
      dsimp only
      split
      · rw [requestWake_linkCore, h1]
      · exact h1

@[simp] theorem beacon_linkCore (flags : Byte) (time : BitVec 32) (s : State) :
    (s.beacon flags time).linkCore = s.linkCore := by unfold State.beacon; split <;> rfl

@[simp] theorem pollStages_linkCore (av : Bool) (tn : BitVec 3) (s : State) : (s.pollStages av tn).linkCore = s.linkCore :=
  linkCore_of_link (pollStages_link av tn s)
    (pollSelect_keeps (pollUnacknowledged_keeps (pollAcknowledge_keeps av tn (.refl s)))).awake

@[simp] theorem applyDelivery_linkCore (chan : Byte) (payload : List Byte) (v : Verdict) (stores broadcast : Bool)
    (s : State) : (s.applyDelivery chan payload v stores broadcast).linkCore = s.linkCore := by
  rw [applyDelivery_eq]; rfl

@[simp] theorem deliver_linkCore (tn : BitVec 3) (chan : Byte) (payload : List Byte) (s : State) :
    (s.deliver tn chan payload).1.linkCore = s.linkCore := by
  unfold State.deliver
  dsimp only
  repeat' split
  case isFalse.isFalse.isFalse.isFalse => exact applyDelivery_linkCore ..
  all_goals rfl

@[simp] theorem deliverAll_linkCore (chan : Byte) (payload : List Byte) (s : State) :
    (s.deliverAll chan payload).linkCore = s.linkCore := by
  unfold State.deliverAll
  dsimp only
  repeat' split
  case isTrue => rfl
  all_goals exact applyDelivery_linkCore ..

@[simp] theorem captureSpan_linkCore (addr : Byte) (n : Nat) (s : State) : (s.captureSpan addr n).linkCore = s.linkCore := by
  rw [captureSpan_eq]; rfl

@[simp] theorem loadOut_linkCore (s : State) : s.loadOut.linkCore = s.linkCore := by rw [loadOut_eq]; rfl

@[simp] theorem advance_linkCore (s : State) : s.advance.linkCore = s.linkCore := by unfold State.advance; split <;> rfl

@[simp] theorem fetch_linkCore (s : State) : s.fetch.linkCore = s.linkCore := by rw [fetch_eq]; rfl

@[simp] theorem captureRefusal_linkCore (addr : Byte) (c : Cause) (s : State) :
    (s.captureRefusal addr c).linkCore = s.linkCore := by rw [captureRefusal_eq]; rfl

theorem commandByte_linkCore (b : Byte) (s : State) : (s.commandByte b).linkCore = s.linkCore := by
  have h (c : HostCommand) (p : Phase) : (s.setCommand c p).linkCore = s.linkCore := rfl
  rw [commandByte_eq, loadOut_linkCore]
  split <;> simp only [requestWake_linkCore, h]

theorem readByte_linkCore (s : State) : s.readByte.linkCore = s.linkCore := by
  have h : s.settleCapture.linkCore = s.linkCore := by rw [settleCapture_eq]; rfl
  unfold State.readByte
  dsimp only
  split <;> simp only [fetch_linkCore, loadOut_linkCore, advance_linkCore, h]

/-- A write of POWER moves between RUN, DOZE and SETTLING, or leaves SLEEP or WAKING as it is (R186). -/
theorem requestPower_linkCore (v : Byte) (s : State) : (s.requestPower v).linkCore = s.linkCore := by
  refine linkCore_of_link rfl ?_
  cases ha : s.awake
  · unfold State.awake State.requestPower at *
    revert ha
    cases s.pr.state <;> simp [PowerState.awake]
  · exact requestPower_awake v ha

theorem writeScanCtl_linkCore (v : Byte) (s : State) : (s.writeScanCtl v).linkCore = s.linkCore := by
  unfold State.writeScanCtl
  dsimp only
  split
  · rfl
  split
  · exact forcedRelease_linkCore _
  · rfl

/-- A write of any register but RESTART, LINKCTL and LINKADDR leaves the link engine's conditions alone. -/
theorem applyWrite_linkCore (m : Master) {r : Reg} (v : Byte) (s : State) (hr : r ∉ [.restart, .linkCtl, .linkAddr]) :
    (s.applyWrite m r v).linkCore = s.linkCore := by
  cases r
  case restart | linkCtl | linkAddr => simp at hr
  case power => exact requestPower_linkCore v s
  case scanCtl => exact writeScanCtl_linkCore v s
  case localTime i => simp only [State.applyWrite, State.writeLocalTime]; split <;> exact updCopies_linkCore ..
  case mbCmd => simp only [State.applyWrite, State.writeMbCmd]; (repeat' split) <;> rfl
  case iflags0 => simp only [State.applyWrite, State.clearFlags0]; split <;> rfl
  all_goals cases m <;> rfl

/-! ### Writes of LINKCTL and LINKADDR -/

/-- What a write of LINKCTL does to the link engine's conditions (R41): nothing, or it enables or disables the link. -/
theorem writeLinkCtl_linkCore (v : Byte) (s : State) :
    (s.writeLinkCtl v).linkCore = s.linkCore ∨
      (s.link.en = false ∧ (s.writeLinkCtl v).linkCore =
        { s.linkCore with en := true, state := .listen, quiet := .stopped, rx := .awaitingIdle }) ∨
      (s.link.en = true ∧ (s.writeLinkCtl v).linkCore =
        { s.linkCore with en := false, state := .off, quiet := .stopped, rx := .awaitingIdle, tx := .idle }) := by
  by_cases hv : v.getLsbD 0 = s.link.en
  · rw [writeLinkCtl_of_same hv, hv]
    exact .inl rfl
  · cases he : s.link.en with
    | false =>
      rw [writeLinkCtl_of_enable (by simpa [he] using hv) he]
      exact .inr (.inl ⟨rfl, rfl⟩)
    | true =>
      rw [writeLinkCtl_of_disable (by simpa [he] using hv) he, disableLink_eq _ _ rfl rfl]
      exact .inr (.inr ⟨rfl, rfl⟩)

/-- The link engine's conditions by the fields that they speak of, with the transmitter idle. -/
theorem linkSound_of_linkCore {s : State} {c : LinkCore} (h : s.linkCore = c) (htx : c.tx = .idle)
    (hen : c.en = (c.state != .off)) (haddr : c.addr ≠ 31#5) (hquiet : c.quiet ≠ .stopped → c.state = .hushed) :
    s.LinkSound := by
  subst h
  exact linkSound_of_idle htx hen haddr hquiet

theorem State.LinkSound.writeLinkCtl {s : State} (h : s.LinkSound) (v : Byte) : (s.writeLinkCtl v).LinkSound := by
  rcases writeLinkCtl_linkCore v s with hc | ⟨he, hc⟩ | ⟨-, hc⟩
  · exact h.congr hc
  · exact linkSound_of_linkCore hc (h.idle_of_off (h.enabled.symm.trans he)) rfl h.address nofun
  · exact linkSound_of_linkCore hc rfl rfl h.address nofun

/-- LINKADDR takes no value of 31 (R20, R25). -/
theorem State.LinkSound.setAddr {s : State} (h : s.LinkSound) {a : BitVec 5} (ha : a ≠ 31#5) :
    State.LinkSound { s with link.addr := a } := ⟨h.enabled, ha, h.halfDuplex, h.speaks, h.asleep, h.quiet⟩

/-- After every restart and reset the transmitter is idle and the link is on exactly if it is enabled (R42, R193). -/
theorem softRestart_linkSound {s : State} (h : s.link.addr ≠ 31#5) : s.softRestart.LinkSound := by
  refine linkSound_of_idle rfl ?_ h nofun
  show s.link.en = ((if s.link.en then LinkState.listen else .off) != .off)
  cases s.link.en <;> rfl

/-- An accepted write by either master keeps the link engine's conditions. -/
theorem State.LinkSound.applyWrite {s : State} (h : s.LinkSound) (m : Master) {r : Reg} {v : Byte}
    (hv : outOfRange r v = false) : (s.applyWrite m r v).LinkSound := by
  by_cases hr : r ∈ [.restart, .linkCtl, .linkAddr]
  · simp only [List.mem_cons, List.not_mem_nil, or_false] at hr
    rcases hr with rfl | rfl | rfl
    · cases m with
      | host => exact softRestart_linkSound h.address
      | head => exact h.congr rfl
    · exact h.writeLinkCtl v
    · exact h.setAddr (by simpa [outOfRange] using hv)
  · exact h.congr (applyWrite_linkCore m v s hr)

/-! ### A completed frame in RUN, DOZE and SETTLING -/

/-- The link engine while a completed frame is served, until a reply is composed: nothing is received or sent. -/
structure State.Serving (s : State) : Prop where
  sound : s.LinkSound
  silent : s.link.tx = .idle
  heard : s.link.rx.cond ≠ .receiving
  awake : s.awake = true

theorem State.Serving.congr {s t : State} (h : s.Serving) (hc : t.linkCore = s.linkCore) : t.Serving where
  sound := h.sound.congr hc
  silent := (congrArg LinkCore.tx hc).trans h.silent
  heard := by rw [show t.link.rx.cond = s.link.rx.cond from congrArg LinkCore.rx hc]; exact h.heard
  awake := (congrArg LinkCore.awake hc).trans h.awake

/-- A reply is composed while the link is on and not CLASHED (R30, R46). -/
theorem State.Serving.reply {s : State} (h : s.Serving) (ho : s.linkOn = true) (hc : s.link.state ≠ .clashed)
    (kind : FrameKind) (tn : BitVec 3) (front back : List Byte) : (s.reply kind tn front back).LinkSound where
  enabled := h.sound.enabled
  address := h.sound.address
  halfDuplex hr := absurd hr h.heard
  speaks _ := ⟨ho, hc⟩
  asleep ha := absurd (h.awake.symm.trans ha) nofun
  quiet := h.sound.quiet

/-- A link that is on moves to another state that is on, its quiet-period timer loaded only in HUSHED. -/
theorem State.Serving.move {s t : State} (h : s.Serving) {st : LinkState} {q : Quiet} (ho : s.linkOn = true)
    (hc : t.linkCore = { s.linkCore with state := st, quiet := q }) (hs : st ≠ .off) (hq : q ≠ .stopped → st = .hushed) :
    t.Serving where
  sound := linkSound_of_linkCore hc h.silent (by simp [hs, State.linkCore, h.sound.enabled, ho]) h.sound.address hq
  silent := (congrArg LinkCore.tx hc).trans h.silent
  heard := by rw [show t.link.rx.cond = s.link.rx.cond from congrArg LinkCore.rx hc]; exact h.heard
  awake := (congrArg LinkCore.awake hc).trans h.awake

theorem linkOn_of_joined {s : State} (h : s.link.state = .joined) : s.linkOn = true := by simp [State.linkOn, h]

theorem State.Serving.replyJoined {s : State} (h : s.Serving) (hj : s.link.state = .joined)
    (kind : FrameKind) (tn : BitVec 3) (front back : List Byte) : (s.reply kind tn front back).LinkSound :=
  h.reply (linkOn_of_joined hj) (by simp [hj]) kind tn front back

theorem State.Serving.enterJoined {s : State} (h : s.Serving) (ho : s.linkOn = true) : s.enterJoined.Serving :=
  h.move (st := .joined) (q := .stopped) ho rfl nofun nofun

theorem attending_linkOn {s : State} (h : s.attending = true) : s.linkOn = true := by
  revert h
  unfold State.attending State.linkOn
  cases s.link.state <;> simp

/-- R43: a plain roll call joins and is answered with a HELLO. -/
theorem State.Serving.serveRollcall {s : State} (h : s.Serving) : s.serveRollcall.LinkSound := by
  unfold State.serveRollcall
  split
  · have ho := attending_linkOn ‹_›
    unfold State.join
    split
    · exact ((h.congr (returnToSource_linkCore s)).enterJoined (by simpa [State.linkOn] using ho)).replyJoined rfl ..
    · exact (h.enterJoined ho).replyJoined rfl ..
  · exact h.sound

/-- R44: a roll call by serial with an address of 0 to 30 unassigns the part, or has it join at that address. -/
theorem State.Serving.serveRollcallBySerial {s : State} (h : s.Serving) (ho : s.linkOn = true) {body : List Byte}
    (hb : (byteAt body 6).toNat ≤ 30) : (s.serveRollcallBySerial body).LinkSound := by
  have h1 : s.returnToSource.Serving := h.congr (returnToSource_linkCore s)
  have ho1 : s.returnToSource.linkOn = true := (returnToSource_linkOn s).trans ho
  unfold State.serveRollcallBySerial
  split
  · split
    · have h2 : State.Serving { s.returnToSource with link.addr := 0 } := { h1 with sound := h1.sound.setAddr (by decide) }
      exact (h2.move (t := s.unassign) (st := .listen) (q := .stopped) ho1 rfl nofun nofun).sound
    · have ha : (byteAt body 6).setWidth 5 ≠ 31#5 := fun he => by
        have := congrArg BitVec.toNat he
        simp at this
        omega
      have h2 : State.Serving { s.returnToSource with link.addr := (byteAt body 6).setWidth 5 } :=
        { h1 with sound := h1.sound.setAddr ha }
      exact (h2.enterJoined ho1).replyJoined rfl ..
  · exact h.sound

/-- R45: a HUSH acts in JOINED and HUSHED alone. -/
theorem State.Serving.hush {s : State} (h : s.Serving) (d : Half) : (s.hush d).LinkSound := by
  unfold State.hush
  split
  · rename_i hj
    exact ((h.congr (returnToSource_linkCore s)).move (st := .hushed) (q := quietOf d)
      (linkOn_of_joined (by simpa using hj)) rfl nofun fun _ => rfl).sound
  · rename_i hh
    exact (h.move (st := .hushed) (q := quietOf d) (by simp [State.linkOn, hh]) (by rw [← hh]; rfl) nofun fun _ => rfl).sound
  all_goals exact h.sound

/-- R46: a clash leaves the link CLASHED, with no reply to be sent. -/
theorem State.Serving.clash {s : State} (h : s.Serving) (ho : s.linkOn = true) : s.clash.LinkSound :=
  ((h.congr (returnToSource_linkCore s)).move (t := s.clash) (st := .clashed) (q := .stopped)
    ((returnToSource_linkOn s).trans ho) rfl nofun nofun).sound

/-! ### POKE -/

/-- The head's write leaves the transmitter idle and nothing being received, and does not bring the link to CLASHED. -/
theorem State.Serving.applyWrite {s : State} (h : s.Serving) {r : Reg} {v : Byte} (hv : outOfRange r v = false) :
    (s.applyWrite .head r v).Serving ∧ (s.link.state ≠ .clashed → (s.applyWrite .head r v).link.state ≠ .clashed) := by
  have same {t : State} (hc : t.linkCore = s.linkCore) : t.Serving ∧ (s.link.state ≠ .clashed → t.link.state ≠ .clashed) :=
    ⟨h.congr hc, by rw [show t.link.state = s.link.state from congrArg LinkCore.state hc]; exact id⟩
  have hs := h.sound.applyWrite .head hv
  have ha := applyWrite_awake .head r v h.awake
  by_cases hr : r ∈ [.restart, .linkCtl, .linkAddr]
  · simp only [List.mem_cons, List.not_mem_nil, or_false] at hr
    rcases hr with rfl | rfl | rfl
    · exact same rfl
    · rcases writeLinkCtl_linkCore v s with hc | ⟨-, hc⟩ | ⟨-, hc⟩
      · exact same hc
      all_goals
        have htx := congrArg LinkCore.tx hc
        have hrx := congrArg LinkCore.rx hc
        have hst := congrArg LinkCore.state hc
        dsimp only [State.linkCore] at htx hrx hst
        exact ⟨⟨hs, by simp [State.applyWrite, htx, h.silent], by simp [State.applyWrite, hrx], ha⟩,
          by simp [State.applyWrite, hst]⟩
    · exact ⟨⟨hs, h.silent, h.heard, ha⟩, id⟩
  · exact same (applyWrite_linkCore .head v s hr)

/-- The bytes of a POKE that was not refused, one after another. -/
theorem State.Serving.writeSpan {s : State} (h : s.Serving) (hc : s.link.state ≠ .clashed) {data : List Byte} {addr : Byte}
    {judge : State} (hj : judge.firstRefusal addr data = none) :
    (s.writeSpan addr data).Serving ∧ (s.writeSpan addr data).link.state ≠ .clashed := by
  induction data generalizing addr judge s with
  | nil => exact ⟨h, hc⟩
  | cons v rest ih =>
    rw [State.firstRefusal] at hj
    cases hcheck : judge.check .head (regAt addr) v with
    | some c => simp [hcheck] at hj
    | none =>
      rw [hcheck] at hj
      obtain ⟨h1, hc1⟩ := h.applyWrite (inRange_of_check hcheck)
      exact ih h1 (hc1 hc) hj

/-- R63: a POKE is answered unless it has taken the link OFF. -/
theorem State.Serving.servePoke {s : State} (h : s.Serving) (hj : s.link.state = .joined) (addr : Byte) (data : List Byte) :
    (s.servePoke addr data).LinkSound := by
  unfold State.servePoke
  split
  · exact h.replyJoined hj ..
  split
  · exact h.replyJoined hj ..
  · obtain ⟨h1, hc⟩ := h.writeSpan (by simp [hj]) ‹_›
    dsimp only
    split
    · exact h1.reply ‹_› hc ..
    · exact h1.sound

/-! ### Every frame -/

theorem State.Serving.servePoll {s : State} (h : s.Serving) (hj : s.link.state = .joined) (av : Bool) (tn : BitVec 3) :
    (s.servePoll av tn).LinkSound := by
  have h1 := h.congr (pollStages_linkCore av tn s)
  have hj1 : (s.pollStages av tn).link.state = .joined := by rw [pollStages_link]; exact hj
  unfold State.servePoll State.replyPoll
  split <;> exact h1.replyJoined hj1 ..

theorem State.Serving.servePeek {s : State} (h : s.Serving) (hj : s.link.state = .joined) (addr count : Byte) :
    (s.servePeek addr count).LinkSound := by
  have h1 := h.congr (captureSpan_linkCore addr count.toNat s)
  have hj1 : (s.captureSpan addr count.toNat).link.state = .joined :=
    (congrArg LinkCore.state (captureSpan_linkCore addr count.toNat s)).trans hj
  unfold State.servePeek
  split
  · exact h.replyJoined hj ..
  · exact h1.replyJoined hj1 ..

theorem State.Serving.serveDeliver {s : State} (h : s.Serving) (hj : s.link.state = .joined) (tn : BitVec 3) (chan : Byte)
    (payload : List Byte) : (s.serveDeliver tn chan payload).LinkSound :=
  (h.congr (deliver_linkCore tn chan payload s)).replyJoined
    ((congrArg LinkCore.state (deliver_linkCore tn chan payload s)).trans hj) ..

theorem joined_iff (s : State) : s.joined = true ↔ s.link.state = .joined := by simp [State.joined]

/-- A head frame that obeys the body rule, dispatched by its kind and the link state (R32). -/
theorem State.Serving.dispatch {s : State} (h : s.Serving) (ho : s.linkOn = true) {f : Frame} (hb : f.bodyRule) :
    (s.dispatch f).LinkSound := by
  unfold State.dispatch
  split <;> rename_i hk
  case h_1 =>
    split
    · exact h.serveRollcall
    · rename_i hne
      rcases hb.1 hk with h0 | ⟨-, -, h6⟩
      · exact absurd (List.length_eq_zero_iff.1 h0) hne
      · exact h.serveRollcallBySerial ho h6
  case h_2 =>
    split
    · exact h.servePoll ((joined_iff s).1 ‹_›) ..
    · exact h.sound
  case h_3 =>
    dsimp only
    split
    · split
      · exact h.sound.congr (deliverAll_linkCore ..)
      · exact h.sound
    · split
      · exact h.serveDeliver ((joined_iff s).1 ‹_›) ..
      · exact h.sound
  case h_4 =>
    split
    · exact h.servePeek ((joined_iff s).1 ‹_›) ..
    · exact h.sound
  case h_5 =>
    split
    · exact h.servePoke ((joined_iff s).1 ‹_›) ..
    · exact h.sound
  case h_6 => exact h.hush _
  case h_7 => exact h.sound.congr (beacon_linkCore ..)
  all_goals exact h.sound

/-- A frame that passes every test of R27 obeys the body rule (R28). -/
theorem bodyRule_of_header {own : BitVec 5} {d a k : Byte} {body : List Byte} {f : Frame}
    (h : classifyHeader own d a k body = .valid f) : f.bodyRule := by
  revert h
  unfold classifyHeader
  dsimp only
  repeat' split
  case h_2.isFalse.isFalse.isFalse hb _ =>
    rintro ⟨⟩
    exact (bodyOk_iff _).1 (by simpa using hb)
  all_goals nofun

theorem bodyRule_of_classify {own : BitVec 5} {rx : Receiver} {f : Frame} (h : classify own rx = .valid f) :
    f.bodyRule := by
  revert h
  unfold classify
  dsimp only
  repeat' split
  case h_1.isFalse.isFalse.isFalse.isFalse => exact bodyRule_of_header
  all_goals nofun

/-- A classified frame in RUN, DOZE and SETTLING (R27). -/
theorem State.Serving.processFrame {s : State} (h : s.Serving) (ho : s.linkOn = true) {c : FrameClass}
    (hc : ∀ f, c = .valid f → f.bodyRule) : (s.processFrame c).LinkSound := by
  cases c with
  | valid f =>
    unfold State.processFrame
    dsimp only
    split
    · exact State.Serving.dispatch (s := s.hearHead) (h.congr rfl) ho (hc f rfl)
    · unfold State.noticeSatellite
      split
      · exact h.clash ho
      · exact h.sound
  | badFormat | badCrc | unknownKind | misdirected => exact h.sound.congr rfl

theorem frameDue_iff (s : State) : s.frameDue = true ↔
    s.linkOn = true ∧ s.link.tx.isTransmitting = false ∧ s.link.rx.cond = .receiving := by
  simp [State.frameDue, State.listening, and_assoc]

/-- The receiver may await idle at any time (R24). -/
theorem State.LinkSound.setReceiver {s : State} (h : s.LinkSound) {rx : Receiver} (hr : rx.cond ≠ .receiving) :
    State.LinkSound { s with link.rx := rx } :=
  ⟨h.enabled, h.address, fun hx => absurd hx hr, h.speaks, h.asleep, h.quiet⟩

/-- R24: a frame that completes keeps the link engine's conditions, in every power state. -/
theorem State.LinkSound.completeFrame {s : State} (h : s.LinkSound) (hd : s.frameDue = true) (bytes : List RxByte) :
    (s.completeFrame bytes).LinkSound := by
  obtain ⟨ho, -, hr⟩ := (frameDue_iff s).1 hd
  have h1 : State.LinkSound { s with link.rx := Receiver.completed } := h.setReceiver nofun
  have serving (ha : s.awake = true) : State.Serving { s with link.rx := Receiver.completed } :=
    ⟨h1, h.halfDuplex hr, nofun, ha⟩
  unfold State.completeFrame
  dsimp only
  split <;> rename_i hp
  case h_1 =>
    split
    · exact h1.congr (requestWake_linkCore _ _ _)
    · exact h1
  case h_2 => exact h1
  all_goals
    exact (serving (by simp [State.awake, hp, PowerState.awake])).processFrame ho fun f hf => bodyRule_of_classify hf

/-! ### The tick -/

/-- R48: the watchdog runs in JOINED and HUSHED; its expiry leads to LISTEN with the timers stopped. -/
theorem State.LinkSound.tickWatchdog {s : State} (h : s.LinkSound) : s.tickWatchdog.LinkSound := by
  unfold State.tickWatchdog
  split
  · rename_i he
    have hst : s.link.state = .joined ∨ s.link.state = .hushed := by
      simp only [State.watchdogExpires, State.watchdogRuns, Bool.and_eq_true, Bool.or_eq_true, beq_iff_eq] at he
      exact he.1.1.1
    have ho : s.linkOn = true := by rcases hst with hs | hs <;> simp [State.linkOn, hs]
    have hr : s.returnToSource.LinkSound := h.congr (returnToSource_linkCore s)
    exact ⟨hr.enabled.trans ((returnToSource_linkOn s).trans ho), hr.address, hr.halfDuplex, fun _ => ⟨rfl, nofun⟩,
      hr.asleep, nofun⟩
  · split <;> exact h.congr rfl

/-- R45: the end of the quiet period leads from HUSHED to JOINED with the quiet-period timer stopped. -/
theorem State.LinkSound.tickQuiet {s : State} (h : s.LinkSound) : s.tickQuiet.LinkSound := by
  unfold State.tickQuiet
  split
  · rename_i he
    have hs : s.link.state = .hushed := by
      simp only [State.quietExpires, Bool.and_eq_true, beq_iff_eq] at he
      exact he.1.1
    exact ⟨h.enabled.trans (by rw [State.linkOn, hs]; rfl), h.address, h.halfDuplex, fun _ => ⟨rfl, nofun⟩, h.asleep, nofun⟩
  · split
    · rename_i hq
      split
      · exact ⟨h.enabled, h.address, h.halfDuplex, h.speaks, h.asleep, fun _ => h.quiet (by simp [hq])⟩
      · exact h
    all_goals exact h

theorem State.LinkSound.tick {s : State} (h : s.LinkSound) (sns : BitVec 4) : (s.tick sns).LinkSound := by
  have h1 : s.tickTime.tickWatchdog.tickQuiet.LinkSound := (h.congr (t := s.tickTime) rfl).tickWatchdog.tickQuiet
  refine h1.congr ?_
  have hscan (x : State) : x.tickScan.linkCore = x.linkCore := rfl
  simp [State.tick, hscan]

/-! ### Sleep, waking and the line -/

/-- SLEEP is entered with the transmitter idle (R187). -/
theorem State.LinkSound.enterSleep {s : State} (h : s.LinkSound) (hd : s.sleepDue = true) : s.enterSleep.LinkSound := by
  simp only [State.sleepDue, State.quiescent, Bool.and_eq_true, beq_iff_eq] at hd
  rw [enterSleep_eq]
  exact linkSound_of_idle hd.2.1.2 h.enabled h.address h.quiet

/-- Waking ends in RUN with the watchdog restarted (R190). -/
theorem State.LinkSound.finishWake {s : State} (h : s.LinkSound) : s.finishWake.LinkSound := by
  have hl := finishWake_link s
  have ha : s.finishWake.awake = true := by rw [State.awake, finishWake_pr]; rfl
  have ho : s.finishWake.linkOn = s.linkOn := by rw [State.linkOn, hl]; rfl
  refine ⟨?_, ?_, ?_, ?_, by simp [ha], ?_⟩ <;> simp only [ho, hl]
  exacts [h.enabled, h.address, h.halfDuplex, h.speaks, h.quiet]

theorem cancelPending_of_idle {s : State} (h : s.link.tx = .idle) : s.cancelPending = s := by
  simp [State.cancelPending, h, Transmitter.isPending]

theorem cancelPending_of_pending {s : State} {r : List Byte} (h : s.link.tx = .pending r) :
    s.cancelPending = s.abandonReply := by simp [State.cancelPending, h, Transmitter.isPending]

/-- Ending, abandoning or cancelling a reply, whatever the receiver does then (R35 to R37). -/
theorem State.LinkSound.silence {s t : State} (h : s.LinkSound) {rx : RxCond}
    (hc : t.linkCore = { s.linkCore with rx := rx, tx := .idle }) : t.LinkSound :=
  linkSound_of_linkCore hc rfl h.enabled h.address h.quiet

/-- A byte that begins on the line with no reply being transmitted, whatever the receiver does then (R24, R37). -/
theorem cancelPending_linkCore {s : State} (h : s.link.tx.isTransmitting = false) (rx : Receiver) :
    State.linkCore { s.cancelPending with link.rx := rx } = { s.linkCore with rx := rx.cond, tx := .idle } := by
  cases htx : s.link.tx with
  | idle => rw [cancelPending_of_idle htx, ← htx]; rfl
  | pending r => rw [cancelPending_of_pending htx]; rfl
  | transmitting r => simp [htx, Transmitter.isTransmitting] at h

theorem hears_iff (c : RxCond) (s : State) : s.hears c = true ↔
    s.linkOn = true ∧ s.link.tx.isTransmitting = false ∧ s.link.rx.cond = c := by
  simp [State.hears, State.listening, and_assoc]

/-- R35: a pending reply is transmitted with the receiver awaiting idle. -/
theorem State.LinkSound.startReply {s : State} (h : s.LinkSound) : s.startReply.LinkSound := by
  unfold State.startReply
  cases htx : s.link.tx with
  | pending r =>
    have hs : s.link.tx ≠ .idle := by simp [htx]
    exact ⟨h.enabled, h.address, nofun, fun _ => h.speaks hs, fun ha => absurd (h.asleep ha) hs, h.quiet⟩
  | idle | transmitting r => exact h

theorem State.LinkSound.hostWriteByte {s : State} (h : s.LinkSound) (v : Byte) : (s.hostWriteByte v).LinkSound := by
  unfold State.hostWriteByte
  dsimp only
  split
  · exact h.congr (by simp)
  · rename_i hcheck
    have h1 := h.applyWrite .host (inRange_of_check hcheck)
    split
    · exact h1
    · exact h1.congr (by simp)

/-! ### Every event and every command -/

/-- Every event that can fall due keeps the link engine's conditions. -/
theorem IsEvent.linkSound {due : State → Bool} {f : State → State} (e : IsEvent due f) {s : State} (h : s.LinkSound)
    (hd : due s = true) : (f s).LinkSound := by
  cases e with
  | restart => exact softRestart_linkSound h.address
  | wakeEnd => exact h.finishWake
  | scan _ keys => exact h.congr (completeScan_linkCore keys s)
  | tick _ sns => exact h.tick sns
  | sleepEntry => exact h.enterSleep hd
  | frame bytes => exact h.completeFrame hd (bytes s)
  | frameStart | discardedByte => exact h.silence (cancelPending_linkCore ((hears_iff _ s).1 hd).2.1 _)
  | hunting => exact h.setReceiver nofun
  | replyStart => exact h.startReply
  | replyEnd | replyAbort | replyCancel => exact h.silence rfl
  | commandByte b => exact h.congr (commandByte_linkCore b s)
  | addressByte b => exact h.congr (loadOut_linkCore _)
  | turnaround => exact h.congr (fetch_linkCore _)
  | readData => exact h.congr (readByte_linkCore s)
  | statusStream | ignoredByte => exact h.congr (loadOut_linkCore s)
  | hostWrite _ v => exact h.hostWriteByte v
  | csnRise | csnFall | csnWhileHeld => exact h.congr rfl

theorem State.Reaches.linkSound {s t : State} (hr : s.Reaches t) (h : s.LinkSound) : t.LinkSound := by
  induction hr with
  | refl => exact h
  | tail _ hstep ih =>
    obtain ⟨due, f, e, hd, rfl⟩ := hstep
    exact e.linkSound ih hd

/-- No strap address of 31 is taken (R42). -/
theorem strapAddr_ne (p : Straps) : strapAddr p ≠ 31#5 := by
  unfold strapAddr
  split
  · decide
  · assumption

/-- The power-on state of the link engine (R42, R193). -/
theorem powerOnReset_linkSound (p : Straps) (s : State) : (s.powerOnReset p).LinkSound := by
  refine linkSound_of_idle rfl ?_ (strapAddr_ne p) nofun
  show p.hostless = ((if p.hostless then LinkState.listen else .off) != .off)
  cases p.hostless <;> rfl

theorem resetUnlessHeld_linkSound (p : Straps) {s : State} (h : s.LinkSound) : (s.resetUnlessHeld p).LinkSound := by
  unfold State.resetUnlessHeld
  split
  · exact h
  · exact powerOnReset_linkSound p s

/-- Every command keeps the link engine's conditions. -/
theorem exec_linkSound {c : Instr} {s t : State} (h : s.LinkSound) (he : exec c s = .next t) : t.LinkSound := by
  cases hr : ofReset c with
  | false =>
    obtain ⟨u, hu, hreach⟩ := exec_reaches c s hr
    obtain rfl : u = t := by simpa [hu] using he
    exact hreach.linkSound h
  | true =>
    match c, hr with
    | .powerOnReset p, _ | .pinReset p, _ =>
      cases he
      exact resetUnlessHeld_linkSound p (h.congr rfl)
    | .resetHeldLow, _ | .supplyBelowRange, _ =>
      cases he
      exact h.congr rfl

end Sys2Proof.Machine

namespace Sys2Proof.Proofs

open Sys2Proof.Machine

/-- Settles O55: each event that a step can be made of keeps the link engine's conditions, where it can fall due. -/
theorem stepKeepsLink : Obligations.StepKeepsLink := fun _ _ =>
  step_keeps (P := State.LinkSound) (fun _ _ hs => hs.congr rfl) fun _ _ _ => exec_linkSound

end Sys2Proof.Proofs

/-! SUPPORT. The part held in reset, the receiver and the transmitter; and the statements on them. -/

namespace Sys2Proof.Machine

/-! ### Held in reset (R191) -/

/-- While the part is held in reset a command that is about no pin and no supply changes nothing. -/
theorem exec_of_held_unchanged {c : Instr} {s : State} (hh : s.held = true) (hr : ofReset c = false) (h1 : c ≠ .csnRise)
    (h2 : c ≠ .csnFall) : exec c s = .next s := by
  have hm (due : State → Bool) (f : State → State) : onMoment due f s = s := if_pos hh
  cases stepForm c with
  | event _ h => rw [h, onEvent_of_held hh]
  | moment _ h => rw [h, hm]
  | scan _ _ keys h => rw [h, scanEvent, eventAfter_of_held hh]
  | reset hc => simp [hc] at hr
  | remoteRestart => simp only [exec, execRemoteRestart, eventAfter_of_held hh, onEvent_of_held hh, ite_self]
  | oscillatorReady => simp only [exec, execOscillatorReady, eventAfter_of_held hh]
  | replyEnd => simp only [exec, execReplyEnd, hm, onEvent_of_held hh, ite_self]
  | byteWhileAwaitingIdle b => simp only [exec, execByteWhileAwaitingIdle, hm, onEvent_of_held hh, ite_self]
  | csnRise => exact absurd rfl h1
  | csnFall => exact absurd rfl h2

/-- A reset command does not end the hold while the other cause of it lasts. -/
theorem resetUnlessHeld_of_held (p : Straps) {s : State} (h : s.held = true) : s.resetUnlessHeld p = s := if_pos h

/-- A part held in reset releases every output, and LINKTX is high (R23, R191). -/
theorem outputs_of_held {t : State} (h : t.held = true) :
    t.sdo = none ∧ t.irqAsserted = false ∧ t.linkDe = false ∧ (∀ n, t.linkTx n = true) ∧ (∀ n, t.lampDuty n = 0) ∧
      ∀ d, t.driveInUse d = false := by
  refine ⟨by simp [State.sdo, h], by simp [State.irqAsserted, h], ?_, fun n => ?_, fun n => by simp [State.lampDuty, h],
    fun d => by simp [State.driveInUse, h]⟩
  · unfold State.linkDe
    split <;> simp [h]
  · unfold State.linkTx
    split <;> simp [h]

/-! ### The receiver (R24) -/

/-- The step ends without entry into SLEEP while a frame is being received. -/
theorem endOfStep_of_receiving {s : State} (h : s.link.rx.cond = .receiving) : s.endOfStep = s := by
  simp [State.endOfStep, State.sleepDue, State.quiescent, h]

/-- What is abandoned with a reply (R36, R37). -/
theorem abandonReply_eq (s : State) : s.abandonReply = { s with
    link.tx := .idle, link.collide := counted s.link.collide, ia.flags0 := s.ia.flags0 ||| rxErr } := rfl

theorem isTransmitting_false {tx : Transmitter} (h : ∀ r, tx ≠ .transmitting r) : tx.isTransmitting = false := by
  cases tx with
  | idle | pending r => rfl
  | transmitting r => exact absurd rfl (h r)

/-- A reply that is not transmitted yet is pending. -/
theorem pending_of_not_idle {tx : Transmitter} (h : ∀ r, tx ≠ .transmitting r) (hi : tx ≠ .idle) :
    ∃ r, tx = .pending r := by
  cases tx with
  | idle => exact absurd rfl hi
  | pending r => exact ⟨r, rfl⟩
  | transmitting r => exact absurd rfl (h r)

/-- A frame start of a ready part that hunts (R24). -/
theorem exec_frameStart_of_ready {s : State} (h : s.Ready) (hd : s.hears .hunting = true) :
    exec .frameStart s = .next s.startFrame := by
  have hr : s.startFrame.link.rx.cond = .receiving := rfl
  simp only [exec, execFrameStart]
  rw [Ready.onEvent_of_due h hd, endOfStep_of_receiving hr]

/-! ### The levels of LINKTX (R23) -/

theorem byteLevels_length (b : Byte) : (byteLevels b).length = 10 := by simp [byteLevels]

theorem byteLevels_start (b : Byte) : (byteLevels b).getD 0 true = false := rfl

theorem byteLevels_data (b : Byte) (k : Fin 8) : (byteLevels b).getD (1 + k.val) true = b.getLsbD k.val := by
  have hk : 1 + k.val = k.val + 1 := Nat.add_comm ..
  have hl : k.val < ((List.range 8).map b.getLsbD).length := by simp
  rw [hk, byteLevels, List.singleton_append, List.cons_append, List.getD_cons_succ, List.getD_append _ _ _ _ hl]
  simp

theorem byteLevels_stop (b : Byte) : (byteLevels b).getD 9 true = true := rfl

/-- The bytes of a reply follow one another, ten bit times each. -/
theorem levels_getD (r : List Byte) (n k : Nat) (hn : n < r.length) (hk : k < 10) :
    (r.flatMap byteLevels).getD (10 * n + k) true = (byteLevels (byteAt r n)).getD k true := by
  induction r generalizing n with
  | nil => simp at hn
  | cons b rest ih =>
    rw [List.flatMap_cons]
    cases n with
    | zero =>
      rw [List.getD_append _ _ _ _ (by rw [byteLevels_length]; omega), Nat.mul_zero, Nat.zero_add]
      rfl
    | succ n =>
      rw [List.getD_append_right _ _ _ _ (by rw [byteLevels_length]; omega), byteLevels_length,
        show 10 * (n + 1) + k - 10 = 10 * n + k by omega, ih n (by simpa using hn)]
      rfl

theorem levels_length (r : List Byte) : (r.flatMap byteLevels).length = 10 * r.length := by
  simp [List.length_flatMap, byteLevels_length, Nat.mul_comm]

theorem linkTx_of_transmitting {s : State} {r : List Byte} (hh : s.held = false) (h : s.link.tx = .transmitting r) (n : Nat) :
    s.linkTx n = (r.flatMap byteLevels).getD n true := by simp [State.linkTx, h, hh]

theorem bitMicros_eq (s : State) : s.bitMicros =
    if s.link.rate = 0#2 then 16 else if s.link.rate = 1#2 then 8 else if s.link.rate = 2#2 then 4 else 2 := by
  unfold State.bitMicros
  generalize s.link.rate = rate
  revert rate
  decide

/-- LINKDE is released and LINKTX high while nothing is transmitted (R23). -/
theorem line_of_not_transmitting {s : State} (h : ∀ r, s.link.tx ≠ .transmitting r) :
    s.linkDe = false ∧ ∀ n, s.linkTx n = true := by
  unfold State.linkDe State.linkTx
  cases htx : s.link.tx with
  | idle | pending r => exact ⟨rfl, fun _ => rfl⟩
  | transmitting r => exact absurd htx (h r)

end Sys2Proof.Machine

namespace Sys2Proof.Proofs

open Sys2Proof.Machine

/-- Settles O3: the commands about a pin or the supply by themselves, every other command by the form of its step. -/
theorem heldPart : Obligations.HeldPart := by
  refine ⟨fun c s hh => ?_, fun s => ⟨rfl, rfl, fun t ht => ?_⟩⟩
  · cases c
    case resetHeldLow | supplyBelowRange => rfl
    case csnRise => simp [exec, execCsnRise, hh]
    case csnFall => simp [exec, execCsnFall, hh]
    case powerOnReset p =>
      exact fun h => congrArg _ (resetUnlessHeld_of_held p (by simp [State.held, h]))
    case pinReset p =>
      exact fun h => congrArg _ (resetUnlessHeld_of_held p (by simp [State.held, h]))
    all_goals exact exec_of_held_unchanged hh rfl nofun nofun
  · have h : t.held = true := by rcases ht with rfl | rfl <;> simp [State.held]
    exact ⟨h, outputs_of_held h⟩

/-- Settles O18: each event of the receiver with the transmitter idle, then with a reply pending, which it cancels. -/
theorem receiverConditions : Obligations.ReceiverConditions := by
  intro b s h ho htx
  have hears (c : RxCond) (hc : s.link.rx.cond = c) : s.hears c = true :=
    (hears_iff c s).2 ⟨ho, isTransmitting_false htx, hc⟩
  refine ⟨fun hc => ⟨fun hi => ?_, fun hi => ?_⟩, fun hc => ⟨?_, fun hi => ?_, fun hi => ?_⟩⟩
  · rw [exec_frameStart_of_ready h (hears _ hc), State.startFrame, cancelPending_of_idle hi]
  · obtain ⟨r, hr⟩ := pending_of_not_idle htx hi
    rw [exec_frameStart_of_ready h (hears _ hc), State.startFrame, cancelPending_of_pending hr, abandonReply_eq]
  · exact congrArg _ (Ready.onMoment_of_due h (hears _ hc))
  · have hp : s.link.tx.isPending = false := by rw [hi]; rfl
    simp only [exec, execByteWhileAwaitingIdle, hp, Bool.false_eq_true, if_false]
    rw [Ready.onMoment_of_due h (hears _ hc), State.discardByte, cancelPending_of_idle hi]
  · obtain ⟨r, hr⟩ := pending_of_not_idle htx hi
    have hp : s.link.tx.isPending = true := by rw [hr]; rfl
    simp only [exec, execByteWhileAwaitingIdle, hp, if_true]
    rw [Ready.onEvent_of_due h (hears _ hc), State.discardByte, cancelPending_of_pending hr, abandonReply_eq]

/-- Settles O19: each event of a reply, then the levels of LINKTX byte by byte. -/
theorem replyTransmission : Obligations.ReplyTransmission := by
  refine ⟨fun r s h => ⟨fun hp => ⟨?_, ?_⟩, fun ht => ⟨fun hn => ?_, fun hn => ⟨_, ?_, softRestart_table s⟩, ?_⟩⟩,
    fun s hh => ⟨fun r hr => ⟨by simp [State.linkDe, hr, hh], fun n hn => ⟨?_, fun b => ?_, ?_⟩, fun n hn => ?_⟩,
      line_of_not_transmitting, bitMicros_eq s⟩⟩
  · have hd : s.link.tx.isPending = true := by rw [hp]; rfl
    simp only [exec, execReplyStart]
    rw [Ready.onMoment_of_due h hd, State.startReply, hp]
  · have hd : s.link.tx.isPending = true := by rw [hp]; rfl
    exact congrArg _ (Ready.onEvent_of_due h hd)
  · have hd : s.link.tx.isTransmitting = true := by rw [ht]; rfl
    simp only [exec, execReplyEnd, hn, Bool.false_eq_true, if_false]
    exact congrArg _ (Ready.onMoment_of_due h hd)
  · have hd : s.link.tx.isTransmitting = true := by rw [ht]; rfl
    have hrun : s.softRestart.pr.state ≠ .settling := nofun
    simp only [exec, execReplyEnd, hn, if_true]
    rw [Ready.onEvent_of_due h hd, endOfStep_of_not_settling _ hrun]
  · have hd : s.link.tx.isTransmitting = true := by rw [ht]; rfl
    exact congrArg _ (Ready.onEvent_of_due h hd)
  · rw [linkTx_of_transmitting hh hr]
    exact (levels_getD r n 0 hn (by decide)).trans (byteLevels_start _)
  · rw [linkTx_of_transmitting hh hr, Nat.add_assoc, levels_getD r n (1 + b.val) hn (by omega), byteLevels_data]
  · rw [linkTx_of_transmitting hh hr, levels_getD r n 9 hn (by decide), byteLevels_stop]
  · rw [linkTx_of_transmitting hh hr, List.getD_eq_default _ _ (by rw [levels_length]; exact hn)]

end Sys2Proof.Proofs

/-! SUPPORT. Bytes sampled on the line, CHECK, and the tests of a completed frame; and the statements on them. -/

namespace Sys2Proof.Machine

/-- A run of bytes with its CHECK leaves the remainder 0 (R26). -/
theorem crc_withCheck (bs : List Byte) : crc (withCheck bs) = 0#16 := by
  rw [withCheck, crc_append]
  exact crc_step (crc bs)

/-- The bits of a byte, each put in its place, are the byte. -/
theorem byte_of_bits : ∀ b : Byte, (List.range 8).foldl (fun acc n => acc ||| bit (b.getLsbD n) n) 0#8 = b := by decide

/-- A byte is sampled as the levels of its data bits say (R23). -/
theorem sampleByte_eq {b : Byte} {level : Nat → Bool} (h : ∀ n : Fin 8, level (n.val + 1) = b.getLsbD n.val) :
    sampleByte level = { value := b, stopFault := !level 9 } := by
  have hv : (List.range 8).foldl (fun acc n => acc ||| bit (level (n + 1)) n) 0#8 = b :=
    (List.foldl_ext _ _ _ fun acc n hn => by rw [h ⟨n, List.mem_range.1 hn⟩]).trans (byte_of_bits b)
  rw [sampleByte, hv]

/-! ### The tests of R27 on the bytes of the header -/

section
variable {own : BitVec 5} {d a k : Byte} {body : List Byte}

/-- Test 6: bits 7..5 of DEST and SRC are 0. -/
theorem classifyHeader_of_top (h : d.extractLsb' 5 3 ≠ 0#3 ∨ a.extractLsb' 5 3 ≠ 0#3) :
    classifyHeader own d a k body = .badFormat := if_pos (by simpa using h)

/-- Test 7: the kind is assigned. -/
theorem classifyHeader_of_unassigned (h : ¬(d.extractLsb' 5 3 ≠ 0#3 ∨ a.extractLsb' 5 3 ≠ 0#3))
    (hk : kindOf (k.extractLsb' 4 4) = none) : classifyHeader own d a k body = .unknownKind := by
  rw [classifyHeader, if_neg (by simpa using h), hk]

/-- Tests 8 to 10: the rules of R28. -/
theorem classifyHeader_of_kind {kind : FrameKind} {f : Frame} (h : ¬(d.extractLsb' 5 3 ≠ 0#3 ∨ a.extractLsb' 5 3 ≠ 0#3))
    (hk : kindOf (k.extractLsb' 4 4) = some kind)
    (hf : f = { dest := d.setWidth 5, src := a.setWidth 5, kind := kind, av := k.getLsbD 3, tn := k.setWidth 3, body := body }) :
    classifyHeader own d a k body =
      if ¬(f.directionRule ∧ f.bodyRule) then .badFormat
      else if f.misdirectedAt own then .misdirected
      else .valid f := by
  rw [classifyHeader, if_neg (by simpa using h), hk]
  dsimp only
  rw [← hf]
  simp only [← directionOk_iff, ← bodyOk_iff, ← addressed_false_iff]
  cases f.directionOk <;> cases f.bodyOk <;> cases f.addressed own <;> rfl

end

theorem attending_iff (s : State) : s.attending = true ↔
    s.link.state = .listen ∨ s.link.state = .joined ∨ s.link.state = .hushed := by simp [State.attending, or_assoc]

/-- A satellite's frame is a clash where it carries the own address, in a link state that takes part (R46). -/
theorem noticeSatellite_eq (f : Frame) (s : State) : s.noticeSatellite f =
    if f.src = s.link.addr ∧ s.link.addr ≠ 0#5 ∧
        (s.link.state = .listen ∨ s.link.state = .joined ∨ s.link.state = .hushed) then s.clash else s := by
  refine if_congr ?_ rfl rfl
  rw [← attending_iff]
  simp [and_assoc]

/-- The step of any frame that completes in RUN, DOZE and SETTLING. -/
theorem exec_frameCompletion_of_ready {rx : List RxByte} {s : State} (h : s.frameReady) (ha : s.awake = true) :
    exec (.frameCompletion rx) s = .next (State.endOfStep (State.processFrame
      (classify s.link.addr (rx.foldl Receiver.receive Receiver.start)) { s with link.rx := Receiver.completed })) := by
  have hr := h.2.2
  simp only [exec, execFrameCompletion]
  rw [frameEvent_of_ready h, completeFrame_of_awake ha, hr]

end Sys2Proof.Machine

namespace Sys2Proof.Proofs

open Sys2Proof.Machine

/-- Settles O20: the CHECK's remainder, the levels of one byte, then the class of a frame by R28's rules. -/
theorem frameRoundTrip : Obligations.FrameRoundTrip := by
  refine ⟨crc_withCheck, fun b stop level hb hs => by rw [sampleByte_eq hb, hs], fun own f hl => ?_⟩
  intro seen
  have hseen := classify_frame own f hl
  refine ⟨fun h => ?_, fun hd hb hm => ?_, fun hd hb hm => ?_⟩
  · refine hseen.trans ?_
    rw [← directionOk_iff, ← bodyOk_iff] at h
    cases hd : f.directionOk
    · rfl
    · cases hb : f.bodyOk
      · rfl
      · exact absurd ⟨hd, hb⟩ h
  · refine hseen.trans ?_
    rw [(directionOk_iff f).2 hd, (bodyOk_iff f).2 hb, (addressed_false_iff own f).2 hm]
    rfl
  · refine hseen.trans ?_
    rw [← addressed_false_iff, Bool.not_eq_false] at hm
    rw [(directionOk_iff f).2 hd, (bodyOk_iff f).2 hb, hm]
    rfl

/-- Settles O21: the tests in their order, each failing one with its class, then R28's rules and the frame's service. -/
theorem frameCompletion : Obligations.FrameCompletion := by
  intro rx s h ha bs len check u formErr
  rw [exec_frameCompletion_of_ready h ha]
  have hclass : classify s.link.addr (rx.foldl Receiver.receive Receiver.start) =
      if rx.any (·.stopFault) then .badFormat
      else if bs.length < 6 then .badFormat
      else if 48 < len then .badFormat
      else if bs.length ≠ 6 + len then .badFormat
      else if bs.drop (4 + len) ≠ [hiByte check, loByte check] then .badCrc
      else classifyHeader s.link.addr (byteAt bs 0) (byteAt bs 1) (byteAt bs 2) ((bs.drop 4).take len) :=
    classify_raw s.link.addr rx
  rw [hclass]
  congr 2
  by_cases h1 : rx.any (·.stopFault) = true
  · rw [if_pos h1, if_pos h1]; rfl
  rw [if_neg h1, if_neg h1]
  by_cases h2 : bs.length < 6
  · rw [if_pos h2, if_pos h2]; rfl
  rw [if_neg h2, if_neg h2]
  by_cases h3 : 48 < len
  · rw [if_pos h3, if_pos h3]; rfl
  rw [if_neg h3, if_neg h3]
  by_cases h4 : bs.length ≠ 6 + len
  · rw [if_pos h4, if_pos h4]; rfl
  rw [if_neg h4, if_neg h4]
  by_cases h5 : bs.drop (4 + len) ≠ [hiByte check, loByte check]
  · rw [if_pos h5, if_pos h5]; rfl
  rw [if_neg h5, if_neg h5]
  by_cases h6 : (byteAt bs 0).extractLsb' 5 3 ≠ 0#3 ∨ (byteAt bs 1).extractLsb' 5 3 ≠ 0#3
  · rw [if_pos h6, classifyHeader_of_top h6]; rfl
  rw [if_neg h6]
  cases hk : kindOf ((byteAt bs 2).extractLsb' 4 4) with
  | none => rw [classifyHeader_of_unassigned h6 hk]; rfl
  | some kind =>
    let f : Frame := { dest := (byteAt bs 0).setWidth 5, src := (byteAt bs 1).setWidth 5, kind := kind,
                       av := (byteAt bs 2).getLsbD 3, tn := (byteAt bs 2).setWidth 3, body := (bs.drop 4).take len }
    rw [classifyHeader_of_kind (f := f) h6 hk rfl]
    dsimp only
    by_cases h7 : ¬(f.directionRule ∧ f.bodyRule)
    · rw [if_pos h7, if_pos h7]; rfl
    rw [if_neg h7, if_neg h7]
    by_cases h8 : f.misdirectedAt s.link.addr
    · rw [if_pos h8, if_pos h8]; rfl
    rw [if_neg h8, if_neg h8, State.processFrame, noticeSatellite_eq]
    rfl

end Sys2Proof.Proofs

/-! SUPPORT. The steps of the head's frames, one equation each; and the statements on what each frame does. -/

namespace Sys2Proof.Machine

/-! ### A frame heard in each link state -/

/-- Hearing a frame and returning the item in flight touch different parts of the state. -/
theorem heard_returnToSource (s : State) : s.heard.returnToSource = { s.returnToSource with link := s.heard.link } := by
  rw [returnToSource_sources s s.heard rfl rfl, returnToSource_eq s]
  rfl

theorem not_joined_heard {s : State} (h : s.link.state ≠ .joined) : s.heard.joined = false := by
  simpa [State.joined, State.heard] using h

/-- The own address of a part that is addressed is not the broadcast address. -/
theorem addr_ne_broadcast {s : State} (h : s.addressed) : s.link.addr ≠ 31#5 := by
  intro e
  have hle := h.2
  rw [e] at hle
  exact absurd hle (by decide)

/-- The own address of a part that is addressed is not the head's. -/
theorem addr_ne_zero {s : State} (h : s.addressed) : s.link.addr ≠ 0#5 := by
  intro e
  have hle := h.1
  rw [e] at hle
  exact absurd hle (by decide)

/-! ### The step of each head frame in RUN, DOZE and SETTLING -/

section
variable {s : State} (hs : s.frameReady) (ha : s.awake = true)
include hs ha

theorem exec_poll_of_not_joined (av : Bool) (tn : BitVec 3) (hd : s.addressed) (hj : s.link.state ≠ .joined) :
    exec (.poll av tn) s = .next s.heard.endOfStep := by
  simp only [exec, execPoll]
  rw [frameEvent_unicast hs ha hd (by simp) rfl (by simp [Frame.bodyOk])]
  simp [State.dispatch, not_joined_heard hj]

theorem exec_peek_of_not_joined (addr count : Byte) (hd : s.addressed) (hj : s.link.state ≠ .joined) :
    exec (.peek addr count) s = .next s.heard.endOfStep := by
  simp only [exec, execPeek]
  rw [frameEvent_unicast hs ha hd (by simp) rfl (by simp [Frame.bodyOk])]
  simp [State.dispatch, not_joined_heard hj]

theorem exec_poke_of_not_joined (addr : Byte) {data : List Byte} (h1 : 1 ≤ data.length) (h16 : data.length ≤ 16)
    (hd : s.addressed) (hj : s.link.state ≠ .joined) : exec (.poke addr data) s = .next s.heard.endOfStep := by
  simp only [exec, execPoke]
  rw [frameEvent_unicast hs ha hd (by simp; omega) rfl (by simp [Frame.bodyOk]; omega)]
  simp [State.dispatch, not_joined_heard hj]

theorem exec_deliver_of_not_joined (tn : BitVec 3) (chan : Byte) {payload : List Byte} (h16 : payload.length ≤ 16)
    (hd : s.addressed) (hj : s.link.state ≠ .joined) : exec (.deliver tn chan payload) s = .next s.heard.endOfStep := by
  simp only [exec, execDeliver]
  rw [frameEvent_unicast hs ha hd (by simp; omega) rfl (by simp [Frame.bodyOk]; omega)]
  simp [State.dispatch, not_joined_heard hj, addr_ne_broadcast hd]

theorem exec_broadcastDeliver_of_ready (tn : BitVec 3) (chan : Byte) {payload : List Byte} (h16 : payload.length ≤ 16) :
    exec (.broadcastDeliver tn chan payload) s = .next (State.endOfStep
      (if s.link.state = .joined ∨ s.link.state = .hushed then s.heard.deliverAll chan payload else s.heard)) := by
  simp only [exec, execBroadcastDeliver]
  rw [frameEvent_broadcast hs ha (by simp; omega) rfl (by simp [Frame.bodyOk]; omega) rfl]
  simp [State.dispatch, State.joined, State.heard, byteAt]

theorem exec_hush_of_ready (toAll : Bool) (d : Half) (hd : toAll = true ∨ s.addressed) :
    exec (.hush toAll d) s = .next (s.heard.hush d).endOfStep := by
  have hserve : ∀ dest av tn, s.heard.dispatch
      { dest := dest, src := 0, kind := .hush, av := av, tn := tn, body := [hiByte d, loByte d] } = s.heard.hush d :=
    fun _ _ _ => congrArg s.heard.hush (halfOf_bytes d)
  simp only [exec, execHush]
  cases toAll with
  | true => exact congrArg _ ((frameEvent_broadcast hs ha (by simp) rfl rfl rfl).trans (by rw [hserve]))
  | false =>
    have hown : s.addressed := by simpa using hd
    exact congrArg _ ((frameEvent_unicast hs ha hown (by simp) rfl rfl).trans (by rw [hserve]))

theorem exec_beacon_of_ready (flags : Byte) (time : BitVec 32) :
    exec (.beacon flags time) s = .next (s.heard.beacon flags time).endOfStep := by
  simp only [exec, execBeacon]
  rw [frameEvent_broadcast hs ha (by simp [bytes32]) rfl rfl rfl]
  exact congrArg (fun t => Host.Outcome.next (s.heard.beacon flags t).endOfStep) (wordOf_bytes time)

theorem exec_rollcall_of_ready (hd : s.addressed) :
    exec .rollcall s = .next s.heard.serveRollcall.endOfStep := by
  simp only [exec, execRollcall]
  rw [frameEvent_unicast hs ha hd (by simp) rfl rfl]
  rfl

theorem exec_rollcallBySerial_of_ready (serial : BitVec 48) (newAddr : Byte) (h30 : newAddr.toNat ≤ 30) :
    exec (.rollcallBySerial serial newAddr) s =
      .next (s.heard.serveRollcallBySerial (serialBytes serial ++ [newAddr])).endOfStep := by
  simp only [exec, execRollcallBySerial]
  rw [frameEvent_broadcast hs ha (by simp [serialBytes]) rfl (by simp [Frame.bodyOk, serialBytes, byteAt]; omega) rfl]
  rfl

end

/-! ### A satellite's frame from the own address -/

/-- The kinds that satellites send (Table 2-3). -/
theorem satelliteKind_of_code : ∀ kind : BitVec 4, 9 ≤ kind.toNat → kind.toNat ≤ 13 →
    ∃ k, kindOf kind = some k ∧ k.fromHead = false := by decide

/-- A satellite's frame from an own address in 1..30 is valid, whatever its body is (R28). -/
theorem classify_satelliteFrame {kind : BitVec 4} {body : List Byte} {s : State} (hd : s.addressed)
    (h9 : 9 ≤ kind.toNat) (h13 : kind.toNat ≤ 13) (hl : body.length ≤ 48) :
    ∃ f : Frame, classify s.link.addr ((satelliteFrame kind body s).foldl Receiver.receive Receiver.start) = .valid f ∧
      f.kind.fromHead = false ∧ f.src = s.link.addr := by
  obtain ⟨k, hk, hsat⟩ := satelliteKind_of_code kind h9 h13
  let f : Frame := { dest := 0, src := s.link.addr, kind := k, av := false, tn := 0, body := body }
  have hbody : f.bodyOk = true := by
    revert hsat
    cases k <;> simp [f, Frame.bodyOk, FrameKind.fromHead]
  have hdir : f.directionOk = true := by
    simp [f, Frame.directionOk, hsat, hd.1, hd.2]
  have haddr : f.addressed s.link.addr = true := if_neg (by simp [f, hsat])
  refine ⟨f, ?_, hsat, rfl⟩
  rw [satelliteFrame, receive_onLine]
  · refine (classify_laid_out s.link.addr 0 s.link.addr kind false 0 body hl).trans ?_
    rw [hk]
    dsimp only
    rw [hdir, hbody, haddr]
    rfl
  · simp only [withCheck_length, List.length_append, frameHeader_length, Receiver.start, List.length_nil,
      Config.frameBytes]
    omega

theorem exec_clash_of_ready {kind : BitVec 4} {body : List Byte} {s : State} (hs : s.frameReady) (ha : s.awake = true)
    (hd : s.addressed) (h9 : 9 ≤ kind.toNat) (h13 : kind.toNat ≤ 13) (hl : body.length ≤ 48) :
    exec (.clash kind body) s = .next (State.endOfStep
      (if s.link.state = .listen ∨ s.link.state = .joined ∨ s.link.state = .hushed then
        State.clash { s with link.rx := Receiver.completed }
      else { s with link.rx := Receiver.completed })) := by
  obtain ⟨f, hf, hsat, hsrc⟩ := classify_satelliteFrame hd h9 h13 hl
  simp only [exec, execClash]
  rw [frameEvent_of_ready hs, completeFrame_of_awake ha, hs.2.2, hf]
  refine congrArg (fun t => Host.Outcome.next (State.endOfStep t)) ?_
  refine (if_neg (by simp [hsat])).trans ((noticeSatellite_eq f _).trans ?_)
  exact if_congr ⟨fun h => h.2.2, fun h => ⟨hsrc, addr_ne_zero hd, h⟩⟩ rfl rfl

/-! ### Joining, and leaving -/

/-- The HELLO that a part in this state sends. -/
def State.hello (s : State) : Frame :=
  { dest := 0, src := s.link.addr, kind := .hello, av := false, tn := 0
    body := serialBytes s.serial ++ [0x3B#8, 0x02#8, s.link.session, 6#8, 12#8] ++ s.digest }

theorem replyHello_eq (s : State) : s.replyHello = { s with link.tx := .pending s.hello.bytes } := by
  rw [State.replyHello, State.reply, List.append_nil]
  rfl

/-- The six serial bytes tell every serial number from every other. -/
theorem serialBytes_inj {a b : BitVec 48} (h : serialBytes a = serialBytes b) : a = b := by
  simp only [serialBytes, List.cons.injEq, and_true] at h
  obtain ⟨h5, h4, h3, h2, h1, h0⟩ := h
  have part : ∀ (k : Nat) (w : BitVec 48), (w.extractLsb' k 8).toNat = w.toNat / 2 ^ k % 256 := fun k w => by
    rw [BitVec.extractLsb'_toNat, Nat.shiftRight_eq_div_pow]
  replace h5 := congrArg BitVec.toNat h5
  replace h4 := congrArg BitVec.toNat h4
  replace h3 := congrArg BitVec.toNat h3
  replace h2 := congrArg BitVec.toNat h2
  replace h1 := congrArg BitVec.toNat h1
  replace h0 := congrArg BitVec.toNat h0
  simp only [part] at h5 h4 h3 h2 h1 h0
  refine BitVec.eq_of_toNat_eq ?_
  omega

end Sys2Proof.Machine

namespace Sys2Proof.Proofs

open Sys2Proof.Machine

/-- Settles O22: each frame's step, in the link states that ignore it. -/
theorem ignoredFrames : Obligations.IgnoredFrames := by
  intro s hs ha
  refine ⟨fun hd hj => ⟨fun av tn => exec_poll_of_not_joined hs ha av tn hd hj,
    fun tn chan payload h16 => exec_deliver_of_not_joined hs ha tn chan h16 hd hj,
    fun addr count => exec_peek_of_not_joined hs ha addr count hd hj,
    fun addr data h1 h16 => exec_poke_of_not_joined hs ha addr h1 h16 hd hj⟩,
    fun hl => ⟨fun tn chan payload h16 => ?_, fun toAll d hd => ?_⟩, fun hd hc => ?_⟩
  · rw [exec_broadcastDeliver_of_ready hs ha tn chan h16, if_neg]
    rcases hl with h | h <;> simp [h]
  · have hidle : s.heard.hush d = s.heard := by
      rcases hl with h | h <;> simp [State.hush, State.heard, h]
    rw [exec_hush_of_ready hs ha toAll d hd, hidle]
  · rw [exec_rollcall_of_ready hs ha hd, State.serveRollcall, if_neg (by simp [State.attending, State.heard, hc])]

/-- Settles O25: SETTIME decides what the beacon does to local time. -/
theorem beacon : Obligations.Beacon := by
  intro flags time s hs ha
  rw [exec_beacon_of_ready hs ha, State.beacon]
  refine ⟨fun h => ?_, fun h => ?_⟩
  · rw [if_pos h]; rfl
  · rw [if_neg (by rw [h]; exact Bool.false_ne_true)]; rfl

/-- Settles O26: the clash where the link state takes part, nothing in CLASHED. -/
theorem clash : Obligations.Clash := by
  intro kind body s hs ha hd h9 h13 hl
  rw [exec_clash_of_ready hs ha hd h9 h13 hl]
  refine ⟨fun h => ?_, fun h => by rw [if_neg (by simp [h])]⟩
  rw [if_pos h, State.clash, returnToSource_sources s { s with link.rx := Receiver.completed } rfl rfl, returnToSource_eq s]
  rfl

/-- Settles O23: what joining, readdressing and unassigning leave, then the HELLO from that state. -/
theorem rollcalls : Obligations.Rollcalls := by
  refine ⟨fun s hs ha hd hl => ?_, fun serial newAddr s hs ha h30 => ⟨fun h => ?_, fun h h0 => ?_, fun h h0 => ?_⟩,
    fun s hs ha hd hc => ?_⟩
  · intro s1 u
    have hatt : s.heard.attending = true := (attending_iff s.heard).2 hl
    have hjoin : s.heard.join = u ∧ u.serial = s.serial := by
      rw [State.join]
      by_cases hlisten : s.link.state = .listen
      · have h1 : s1 = s := if_pos hlisten
        rw [if_neg (by simp [State.heard, hlisten])]
        simp only [u, h1]
        exact ⟨rfl, trivial⟩
      · have h1 : s1 = s.returnToSource := if_neg hlisten
        have hjh : s.link.state = .joined ∨ s.link.state = .hushed := hl.resolve_left hlisten
        rw [if_pos (by simpa [State.heard] using hjh), heard_returnToSource]
        simp only [u, h1]
        refine ⟨?_, returnToSource_serial s⟩
        rw [returnToSource_eq s]
        rfl
    obtain ⟨hjoin, hserial⟩ := hjoin
    rw [exec_rollcall_of_ready hs ha hd, State.serveRollcall, if_pos hatt, State.replyHello, endOfStep_reply,
      ← State.replyHello, replyHello_eq, hjoin, State.hello, hserial]
  · have hne : (serialBytes serial ++ [newAddr]).take 6 ≠ serialBytes s.heard.serial := fun e => h (serialBytes_inj e)
    rw [exec_rollcallBySerial_of_ready hs ha serial newAddr h30, State.serveRollcallBySerial, if_neg hne]
  · rw [exec_rollcallBySerial_of_ready hs ha serial newAddr h30, State.serveRollcallBySerial, if_pos (by rw [h]; rfl),
      if_pos (by rw [h0]; rfl), State.unassign, heard_returnToSource, returnToSource_eq s]
    rfl
  · intro u
    have hjoin : s.heard.joinAt (newAddr.setWidth 5) = u := by
      rw [State.joinAt, heard_returnToSource]
      simp only [u]
      rw [returnToSource_eq s]
      rfl
    have hserial : u.serial = s.serial := returnToSource_serial s
    have hbyte : byteAt (serialBytes serial ++ [newAddr]) 6 = newAddr := rfl
    rw [exec_rollcallBySerial_of_ready hs ha serial newAddr h30, State.serveRollcallBySerial, if_pos (by rw [h]; rfl),
      hbyte, if_neg h0, State.replyHello, endOfStep_reply, ← State.replyHello, replyHello_eq, hjoin, State.hello, hserial]
  · rw [exec_rollcall_of_ready hs ha hd, State.serveRollcall, if_neg (by simp [State.attending, State.heard, hc])]

/-- Settles O27: the stages leave the link engine alone, and the item in flight after them decides the reply. -/
theorem pollReply : Obligations.PollReply := by
  intro av tn s hs ha hd hj u frame
  have haddr : u.link.addr = s.link.addr := by
    show (s.heard.pollStages av tn).link.addr = _
    rw [pollStages_link]
    rfl
  rw [poll_of_ready hs ha hd hj]
  have hreply : ∀ kind turn item, u.reply kind turn [] item =
      { u with link.tx := .pending (Frame.bytes (frame kind turn item)) } := fun kind turn item => by
    rw [State.reply, haddr]
    rfl
  refine ⟨fun f i hf hi => ?_, fun f hf hi => ?_, fun hf => ?_⟩
  · rw [State.replyPoll, hf]
    dsimp only
    rw [hi, hreply]
    rfl
  · rw [State.replyPoll, hf]
    dsimp only
    rw [hi, hreply]
    rfl
  · rw [State.replyPoll, hf]
    exact congrArg _ (hreply .nothing 0 [])

end Sys2Proof.Proofs

/-! SUPPORT. The tick in which the silence watchdog expires, and the tick in which the quiet period ends. -/

namespace Sys2Proof.Machine

/-- The watchdog expires in a tick of RUN, DOZE or SETTLING once SILENCE, in units of 20 ms, has passed (R48). -/
theorem watchdogExpires_of_due {s : State} (ha : s.awake = true) (hl : s.link.state = .joined ∨ s.link.state = .hushed)
    (h0 : s.link.silence ≠ 0#8) (hw : s.link.silence.toNat * 20 ≤ s.link.watchdog + 1) : s.watchdogExpires = true := by
  have hruns : s.watchdogRuns = true := by simpa [State.watchdogRuns, ha] using hl
  simp [State.watchdogExpires, hruns, h0, hw]

/-- The quiet period runs out in a tick of RUN, DOZE or SETTLING that finds at most 1 ms of it left (R45). -/
theorem quietExpires_of_due {s : State} {ms : Nat} (ha : s.awake = true) (hl : s.link.state = .hushed)
    (hq : s.link.quiet = .left ms) (hms : ms ≤ 1) : s.quietExpires = true := by
  simp [State.quietExpires, ha, hl, hq, hms]

/-- With the quiet-period timer stopped, its position in the tick does nothing. -/
theorem tickQuiet_of_stopped {s : State} (h : s.link.quiet = .stopped) : s.tickQuiet = s := by
  have hq : s.quietExpires = false := by simp [State.quietExpires, h]
  rw [State.tickQuiet, if_neg (by simp [hq]), h]

/-- Losing the head changes the link, the lock, the return-to-source parts and the flags (R48). -/
theorem loseHead_eq (s : State) : s.loseHead = { s with
    link := { s.link with state := .listen, watchdog := 0, quiet := .stopped }
    own.rlock := 0
    ob := s.returnToSource.ob
    jr := s.returnToSource.jr
    ia.flags0 := s.ia.flags0 ||| (lostHead ||| linkChg) } := by
  rw [State.loseHead, returnToSource_eq s]
  rfl

/-- Local time and the link timers in the tick in which the watchdog expires: the quiet-period timer is stopped with it. -/
theorem tickFront_of_watchdogExpires {s : State} (ha : s.awake = true) (hw : s.watchdogExpires = true) :
    tickFront s = { s with
      st.localTime := s.st.localTime + 1
      link := { s.link with state := .listen, watchdog := 0, quiet := .stopped }
      own.rlock := 0
      ob := s.returnToSource.ob
      jr := s.returnToSource.jr
      ia.flags0 := s.ia.flags0 ||| (lostHead ||| linkChg) } := by
  rw [tickFront, tickTime_awake s ha]
  set a : State := { s with st.localTime := s.st.localTime + 1 }
  have hlost : a.tickWatchdog = a.loseHead := if_pos hw
  rw [hlost, loseHead_eq, returnToSource_sources s a rfl rfl]
  exact tickQuiet_of_stopped rfl

/-- Local time and the link timers in the tick in which the quiet period ends and the watchdog does not expire. -/
theorem tickFront_of_quietEnds {s : State} (ha : s.awake = true) (hw : s.watchdogExpires = false)
    (hq : s.quietExpires = true) : tickFront s = { s with
      st.localTime := s.st.localTime + 1
      link := { s.link with state := .joined, quiet := .stopped, watchdog := 0 }
      ia.flags0 := s.ia.flags0 ||| linkChg } := by
  rw [tickFront, tickTime_awake s ha]
  set a : State := { s with st.localTime := s.st.localTime + 1 }
  have hruns : a.tickWatchdog = { a with link.watchdog := a.watchdogLeft } := tickWatchdog_of_running hw
  rw [hruns]
  exact if_pos hq

end Sys2Proof.Machine

namespace Sys2Proof.Proofs

open Sys2Proof.Machine

/-- Settles O8: the expiry in its place in the tick, then the rest of the tick on what it leaves. -/
theorem watchdogExpiry : Obligations.WatchdogExpiry := by
  intro sns s h ha hl h0 hdue
  have hw : s.watchdogExpires = true := watchdogExpires_of_due ha hl h0 hdue
  refine ⟨s.tick sns, congrArg _ (Ready.onEvent_of_due h hw), ?_⟩
  rw [tick_awake sns s ha, tickFront_of_watchdogExpires ha hw]

/-- Settles O24: HUSH in either link state; then the end of the quiet period in its place in the tick. -/
theorem hushAndQuietPeriod : Obligations.HushAndQuietPeriod := by
  refine ⟨fun toAll d s hs ha hd => ?_, fun sns s ms h ha hl hleft hms hw => ?_⟩
  · intro period
    rw [exec_hush_of_ready hs ha toAll d hd, State.hush, heard_returnToSource, returnToSource_eq s]
    refine ⟨fun hj => ?_, fun hh => ?_⟩
    · rw [show s.heard.link.state = .joined from hj]
      rfl
    · rw [show s.heard.link.state = .hushed from hh]
      rfl
  · have hq : s.quietExpires = true := quietExpires_of_due ha hl hleft hms
    have hdue : s.quietEnds = true := by simp [State.quietEnds, hw, hq]
    refine ⟨s.tick sns, congrArg _ (Ready.onEvent_of_due h hdue), ?_⟩
    rw [tick_awake sns s ha, tickFront_of_quietEnds ha hw hq]

end Sys2Proof.Proofs

/-! SUPPORT. OWNER and RLOCK: the rules of R53 to R56 bit by bit, the access check that they make, and the statement on them. -/

namespace Sys2Proof.Machine

/-! ### The forbidden bits of a write (R53, R54, R56) -/

/-- A set of groups is not empty if one of its bits is set. -/
theorem ne_zero_iff_getLsbD {w : Nat} (x : BitVec w) : ¬x = 0#w ↔ ∃ n : Fin w, x.getLsbD n.val = true := by
  constructor
  · intro hx
    by_contra! hno
    exact hx (BitVec.eq_of_getLsbD_eq fun i hi => by simpa using hno ⟨i, hi⟩)
  · rintro ⟨n, hn⟩ rfl
    simp at hn

/-- R53: a group of the head with its lock set goes back to the host. -/
theorem reclaimsLocked_iff (s : State) (v : Byte) : s.reclaimsLocked v = true ↔
    ∃ n : Fin 6, s.own.owner.getLsbD n.val = true ∧ v.getLsbD n.val = false ∧ s.own.rlock.getLsbD n.val = true := by
  simp [State.reclaimsLocked, ne_zero_iff_getLsbD, and_assoc]

/-- R54: in the hosted arrangement a group of the host goes to the head. -/
theorem seizesHosted_iff (s : State) (v : Byte) : s.seizesHosted v = true ↔
    s.pr.straps.hostless = false ∧ ∃ n : Fin 6, s.own.owner.getLsbD n.val = false ∧ v.getLsbD n.val = true := by
  simp [State.seizesHosted, ne_zero_iff_getLsbD]

/-- R56: a lock is set on a group of the host. -/
theorem locksUnowned_iff (s : State) (v : Byte) : s.locksUnowned v = true ↔
    ∃ n : Fin 6, s.own.rlock.getLsbD n.val = false ∧ v.getLsbD n.val = true ∧ s.own.owner.getLsbD n.val = false := by
  simp [State.locksUnowned, ne_zero_iff_getLsbD, and_assoc]

/-! ### The writes (R19, R53 to R56) -/

section
variable {s : State} {m : Master} {addr v : Byte} {r : Reg}

/-- A write of OWNER, or of RLOCK by the head, meets cause 3 alone. -/
theorem check_of_ownership (h : r.writeClass = .ownership) (hm : r = .rlock → m = .head) :
    s.check m r v = if s.notOwner m r v then some .notOwner else none := by
  cases r
  case owner => simp [State.check, Reg.writeClass, State.busy, outOfRange, State.mismatch]
  case rlock => simp [State.check, Reg.writeClass, State.busy, outOfRange, State.mismatch, hm rfl]
  case localTime => simp only [Reg.writeClass] at h; split at h <;> cases h
  all_goals cases h

/-- One forbidden bit has the whole write refused. -/
theorem writeBy_forbidden (hs : s.writeReady m addr) (hreg : regAt addr = r) (h : r.writeClass = .ownership)
    (hm : r = .rlock → m = .head) (hn : s.notOwner m r v = true) :
    writeBy m addr v s = s.refusedWrite m addr .notOwner := by
  subst hreg
  exact writeBy_refused hs (by rw [check_of_ownership h hm, hn, if_pos rfl])

/-- A write without a forbidden bit takes effect. -/
theorem writeBy_permitted (hs : s.writeReady m addr) (hreg : regAt addr = r) (h : r.writeClass = .ownership)
    (hm : r = .rlock → m = .head) (hn : ¬s.notOwner m r v = true) :
    writeBy m addr v s = ((s.opened m).applyWrite m r v).closed m := by
  subst hreg
  refine writeBy_accepted hs (by rw [check_of_ownership h hm, if_neg hn]) fun _ hr => ?_
  rw [hr] at h
  cases h

end

end Sys2Proof.Machine

namespace Sys2Proof.Proofs

open Sys2Proof.Machine

/-- Settles O44: for each of the three writes, the forbidden bit that refuses it, then its effect when no bit is forbidden. -/
theorem ownershipWrites : Obligations.OwnershipWrites := by
  refine ⟨fun v s => ⟨fun hs => ⟨fun hbit => ?_, fun hall => ?_⟩, fun hs => ⟨fun hhosted hbit => ?_, fun hall => ?_⟩⟩,
    fun v s hs => ⟨fun hbit => ?_, fun hall => ?_⟩⟩
  · have hw := writeBy_forbidden hs (r := .owner) rfl rfl nofun ((reclaimsLocked_iff s v).2 hbit)
    exact ⟨congrArg _ hw, congrArg _ hw⟩
  · have hno : ¬s.reclaimsLocked v = true := by
      rw [reclaimsLocked_iff]
      rintro ⟨n, howner, hv, hlock⟩
      rw [hall n howner hv] at hlock
      cases hlock
    have hw := writeBy_permitted hs (r := .owner) rfl rfl nofun hno
    exact ⟨congrArg _ hw, congrArg _ hw⟩
  · have hw := writeBy_forbidden hs (r := .owner) rfl rfl nofun ((seizesHosted_iff s v).2 ⟨hhosted, hbit⟩)
    exact ⟨congrArg _ hw, congrArg _ hw⟩
  · have hno : ¬s.seizesHosted v = true := by
      rw [seizesHosted_iff]
      rintro ⟨hhosted, n, howner, hv⟩
      rcases hall with hhostless | hall
      · simp [hhosted] at hhostless
      · rw [hall n hv] at howner
        cases howner
    have hw := writeBy_permitted hs (r := .owner) rfl rfl nofun hno
    exact ⟨congrArg _ hw, congrArg _ hw⟩
  · have hw := writeBy_forbidden hs (r := .rlock) rfl rfl (fun _ => rfl) ((locksUnowned_iff s v).2 hbit)
    exact ⟨congrArg _ hw, congrArg _ hw⟩
  · have hno : ¬s.locksUnowned v = true := by
      rw [locksUnowned_iff]
      rintro ⟨n, hlock, hv, howner⟩
      rw [hall n hlock hv] at howner
      cases howner
    have hw := writeBy_permitted hs (r := .rlock) rfl rfl (fun _ => rfl) hno
    exact ⟨congrArg _ hw, congrArg _ hw⟩

end Sys2Proof.Proofs

/-! SUPPORT. A POKE served in JOINED: refused as a whole or applied in order, the byte at RESTART, and the statement on it. -/

namespace Sys2Proof.Machine

/-! ### The step of a POKE (R60 to R63) -/

section
variable {s : State}

theorem exec_poke_of_ready {addr : Byte} {data : List Byte} (hs : s.frameReady) (ha : s.awake = true) (hd : s.addressed)
    (hj : s.link.state = .joined) (h1 : 1 ≤ data.length) (h16 : data.length ≤ 16) :
    exec (.poke addr data) s = .next (s.heard.servePoke addr data).endOfStep := by
  simp only [exec, execPoke]
  rw [frameEvent_unicast hs ha hd (by simp; omega) rfl (by simp [Frame.bodyOk]; omega)]
  simp [State.dispatch, heard_joined hj, byteAt]

/-- R60: a POKE whose span passes 0xFF is answered RANGE. -/
theorem servePoke_of_pastEnd {addr : Byte} {data : List Byte} (h : 0xFF < addr.toNat + data.length - 1) :
    s.servePoke addr data = s.replyReceipt 0x13#8 addr := if_pos (decide_eq_true h)

/-- R61: a POKE is refused as a whole by its first byte that fails. -/
theorem servePoke_of_refused {addr a : Byte} {data : List Byte} {c : Cause} (h : addr.toNat + data.length - 1 ≤ 0xFF)
    (hr : s.firstRefusal addr data = some (c, a)) : s.servePoke addr data = s.replyReceipt c.code a := by
  have hin : pastEnd addr data.length = false := decide_eq_false (by omega)
  simp [State.servePoke, hin, hr]

/-- R62, R63: a POKE with no byte that fails writes its bytes, and is answered DONE unless they have taken the link OFF. -/
theorem servePoke_of_accepted {addr : Byte} {data : List Byte} (h : addr.toNat + data.length - 1 ≤ 0xFF)
    (hr : s.firstRefusal addr data = none) : s.servePoke addr data =
      if (s.writeSpan addr data).link.state = .off then s.writeSpan addr data
      else (s.writeSpan addr data).replyReceipt 0x10#8 0#8 := by
  have hin : pastEnd addr data.length = false := decide_eq_false (by omega)
  simp only [State.servePoke, hin, hr, State.linkOn, bne_iff_ne, ite_not, Bool.false_eq_true, if_false]

theorem endOfStep_replyReceipt (code detail : Byte) (s : State) :
    (s.replyReceipt code detail).endOfStep = s.replyReceipt code detail := endOfStep_reply ..

/-! ### RESTART by the head (R64) -/

/-- The head's accepted write of RESTART sets restart pending and is answered DONE; nothing restarts in its step. -/
theorem headWrite_restart (hs : s.writeReady .head 0x05#8) (ho : s.owns .head .sys) :
    writeBy .head 0x05#8 1#8 s = ({ s.heard with own.restartPending := true } : State).replyReceipt 0x10#8 0#8 := by
  have hreg : regAt 0x05#8 = .restart := rfl
  have hc : s.check .head (regAt 0x05#8) 1#8 = none := hreg ▸ check_of_accepted (g := .sys) rfl ho rfl rfl
  have hj : s.link.state = .joined := by
    obtain ⟨-, -, hj, -⟩ := hs
    exact hj
  have hon : ({ s.heard with own.restartPending := true } : State).linkOn = true := by
    simp [State.linkOn, State.heard, hj]
  rw [writeBy_accepted hs hc nofun, hreg]
  simp only [State.opened, State.applyWrite, State.closed, hon, if_true, endOfStep_replyReceipt]

end

end Sys2Proof.Machine

namespace Sys2Proof.Proofs

open Sys2Proof.Machine

/-- Settles O37: a POKE by its span and its first byte that fails; then the head's write of RESTART, by itself and as a
REGISTER_WRITE. -/
theorem poke : Obligations.Poke := by
  refine ⟨?_, fun u => rfl, ?_⟩
  · intro addr data s hs ha hd hj h1 h16 reg judged
    rw [exec_poke_of_ready hs ha hd hj h1 h16]
    obtain ⟨hfirst, hnone⟩ := firstRefusal_at data addr s.heard
    refine ⟨fun hpast => ?_, fun hin => ⟨fun i c hi hc hbefore => ?_, fun hall => ?_⟩⟩
    · rw [servePoke_of_pastEnd hpast, endOfStep_replyReceipt]
    · rw [servePoke_of_refused hin (hfirst i c hi hc hbefore), endOfStep_replyReceipt]
    · rw [servePoke_of_accepted hin (hnone hall), writeSpan_fold]
  · intro s hs ha hd hj ho u done
    have hw : writeBy .head 0x05#8 1#8 s = done := headWrite_restart ⟨ha, hs, hj, hd⟩ ho
    exact ⟨congrArg _ hw, congrArg _ hw⟩

end Sys2Proof.Proofs

/-! SUPPORT. The journal's operations: what becomes of an event, and the relations of the records, case by case of each
operation. -/

namespace Sys2Proof.Machine

/-! ### What becomes of an event (R70 to R72, R84 to R87) -/

/-- The record that an event becomes, with the wants of its routing; the head is a consumer while the link is on. -/
def Journal.recordOf (j : Journal) (linkOn : Bool) (stamp : Half) (e : Event) : JRecord :=
  { seq := j.nextSeq, kind := e.kind, subject := e.subject, detail := e.detail, stamp := stamp
    wantLocal := (j.routing e.kind.routeClass).getLsbD 0
    wantRemote := (j.routing e.kind.routeClass).getLsbD 1 && linkOn, pinned := false }

/-- The four things that can become of an event. -/
theorem handOver_eq (linkOn : Bool) (stamp : Half) (j : Journal) (e : Event) :
    j.handOver linkOn stamp e =
      if (j.recordOf linkOn stamp e).wanted = false then (j, false)
      else if j.list.length < Config.journalRecords then (j.append (j.recordOf linkOn stamp e), false)
      else if j.policy = 1#8 ∧ j.oldestPinned = false then (j.evict.append (j.recordOf linkOn stamp e), j.oldestLocal)
      else (j.lose (j.recordOf linkOn stamp e).wantLocal (j.recordOf linkOn stamp e).wantRemote,
        (j.recordOf linkOn stamp e).wantLocal) := by
  simp [Journal.handOver, Journal.recordOf, JRecord.wanted, imp_iff_not_or]

section
variable {j : Journal} {r : JRecord} {rest : List JRecord}

/-- R85: an oldest record that the host wants is counted with the presented loss, and the next record is presented. -/
theorem evict_of_wantLocal (hl : j.list = r :: rest) (hw : r.wantLocal = true) : j.evict = Journal.represent { j with
    list := rest, remoteLost := if r.wantRemote then counted j.remoteLost else j.remoteLost
    localLost := counted (satAdd j.localLost j.presentedLoss), presentedLoss := 0 } := by
  simp [Journal.evict, hl, hw]

/-- R85: an oldest record that the host does not want goes without a change of what is presented. -/
theorem evict_of_not_wantLocal (hl : j.list = r :: rest) (hw : r.wantLocal = false) : j.evict = { j with
    list := rest, remoteLost := if r.wantRemote then counted j.remoteLost else j.remoteLost } := by
  simp [Journal.evict, hl, hw]

@[simp] theorem represent_list (j : Journal) : j.represent.list = j.list := by rw [represent_eq]

@[simp] theorem append_list (r : JRecord) (j : Journal) : (j.append r).list = j.list ++ [r] := by
  rw [append_record_eq]; split <;> rfl

@[simp] theorem evict_list (j : Journal) : j.evict.list = j.list.tail := by
  cases hl : j.list with
  | nil => simp [Journal.evict, hl]
  | cons r rest =>
    cases hw : r.wantLocal with
    | true => rw [evict_of_wantLocal hl hw]; simp
    | false => rw [evict_of_not_wantLocal hl hw]; rfl

end

/-! ### The relations of one journal -/

/-- What holds of every record of the journal: `on` says that the link is not OFF, `flying` that a batch is in flight. -/
structure JRecord.Fits (on : Bool) (flying : Prop) (r : JRecord) : Prop where
  wanted : r.wanted = true
  pinned : r.pinned = true → r.wantRemote = true ∧ flying
  offline : on = false → r.wantRemote = false

/-- The relations of the journal with the link and the item in flight; the pinned records are the batch in flight (R80). -/
structure Journal.Sound (on : Bool) (item : Option Item) (j : Journal) : Prop where
  room : j.list.length ≤ Config.journalRecords
  records : ∀ r ∈ j.list, r.Fits on (j.batch ≠ none ∧ item = some .batch)
  loss : (∀ r ∈ j.list, r.wantLocal = false) → j.presentedLoss = 0#8
  offline : on = false → j.remoteLost = 0#8

theorem presented_eq_none_iff (j : Journal) : j.presented = none ↔ ∀ r ∈ j.list, r.wantLocal = false := by
  simp [Journal.presented]

section
variable {on on' : Bool} {item item' : Option Item} {j : Journal} {r : JRecord} {p q : Prop}

/-- While the link is on the head may be owed anything. -/
theorem JRecord.Fits.online (h : r.Fits on p) : r.Fits true p := ⟨h.wanted, h.pinned, nofun⟩

/-- A record that is not pinned belongs to no batch. -/
theorem JRecord.Fits.ofUnpinned (h : r.Fits on p) (hp : r.pinned = false) : r.Fits on q :=
  ⟨h.wanted, fun hr => by simp [hp] at hr, h.offline⟩

/-- A record without want_remote that is not pinned is at home with any link and any item in flight. -/
theorem JRecord.Fits.ofLocal (hl : r.wantLocal = true) (hr : r.wantRemote = false) (hp : r.pinned = false) :
    r.Fits on p := ⟨by simp [JRecord.wanted, hl], fun h => by simp [hp] at h, fun _ => hr⟩

theorem Journal.Sound.online (h : j.Sound on item) : j.Sound true item :=
  ⟨h.room, fun r hr => (h.records r hr).online, h.loss, nofun⟩

/-- Without a batch in flight no record is pinned. -/
theorem Journal.Sound.unpinned (h : j.Sound on item) (hi : item ≠ some .batch) (hr : r ∈ j.list) : r.pinned = false := by
  by_contra hp
  exact hi ((h.records r hr).pinned (by simpa using hp)).2.2

/-- Without a batch in flight any item may come next. -/
theorem Journal.Sound.setItem (h : j.Sound on item) (hi : item ≠ some .batch) : j.Sound on item' :=
  ⟨h.room, fun r hr => (h.records r hr).ofUnpinned (h.unpinned hi hr), h.loss, h.offline⟩

/-- The emptied journal of a reset (R90). -/
theorem Journal.Sound.ofNil (hl : j.list = []) (hp : j.presentedLoss = 0#8) (hr : j.remoteLost = 0#8) :
    j.Sound on item := ⟨by simp [hl], by simp [hl], fun _ => hp, fun _ => hr⟩

/-! ### Local operations -/

/-- Presenting the next record settles the presented loss, whatever it was (R74). -/
theorem sound_represent (room : j.list.length ≤ Config.journalRecords)
    (records : ∀ r ∈ j.list, r.Fits on (j.batch ≠ none ∧ item = some .batch))
    (offline : on = false → j.remoteLost = 0#8) : j.represent.Sound on item := by
  rw [represent_eq]
  refine ⟨room, records, fun hnone => if_neg ?_, offline⟩
  simpa using hnone

/-- R70: a record that is not pinned joins a list with room for it. -/
theorem Journal.Sound.append (h : j.Sound on item) (hroom : j.list.length < Config.journalRecords)
    (hr : r.Fits on (j.batch ≠ none ∧ item = some .batch)) : (j.append r).Sound on item := by
  have room : (j.list ++ [r]).length ≤ Config.journalRecords := by simpa using hroom
  have records : ∀ x ∈ j.list ++ [r], x.Fits on (j.batch ≠ none ∧ item = some .batch) := by
    simpa [or_imp, forall_and] using ⟨h.records, hr⟩
  rw [append_record_eq]
  split
  · rename_i hnew
    refine ⟨room, records, fun hnone => ?_, h.offline⟩
    simp [hnone r (by simp)] at hnew
  · exact ⟨room, records, fun hnone => h.loss fun x hx => hnone x (by simp [hx]), h.offline⟩

/-- R85: the oldest record goes. -/
theorem Journal.Sound.evict (h : j.Sound on item) : j.evict.Sound on item := by
  cases hl : j.list with
  | nil => simpa [Journal.evict, hl] using h
  | cons r rest =>
    have room : rest.length ≤ Config.journalRecords := by
      have := h.room
      rw [hl, List.length_cons] at this
      omega
    have records : ∀ x ∈ rest, x.Fits on (j.batch ≠ none ∧ item = some .batch) :=
      fun x hx => h.records x (by simp [hl, hx])
    have offline (ho : on = false) : (if r.wantRemote then counted j.remoteLost else j.remoteLost) = 0#8 := by
      simp [(h.records r (by simp [hl])).offline ho, h.offline ho]
    cases hw : r.wantLocal with
    | true =>
      rw [evict_of_wantLocal hl hw]
      exact sound_represent room records offline
    | false =>
      rw [evict_of_not_wantLocal hl hw]
      exact ⟨room, records, fun hnone => h.loss (by simpa [hl, hw] using hnone), offline⟩

/-- R84: with the link OFF no event is lost to the head. -/
theorem Journal.Sound.lose (h : j.Sound on item) (wantLocal : Bool) {wantRemote : Bool}
    (hr : on = false → wantRemote = false) : (j.lose wantLocal wantRemote).Sound on item :=
  ⟨h.room, h.records, h.loss, fun ho => by simp [Journal.lose, hr ho, h.offline ho]⟩

/-- An event handed over by a producer (R71, R72, R84 to R86). -/
theorem Journal.Sound.handOver (h : j.Sound on item) (stamp : Half) (e : Event) :
    (j.handOver on stamp e).1.Sound on item := by
  have hoff (ho : on = false) : (j.recordOf on stamp e).wantRemote = false := by simp [Journal.recordOf, ho]
  rw [handOver_eq]
  split
  · exact h
  rename_i hw
  have hfits {p : Prop} : (j.recordOf on stamp e).Fits on p := ⟨by simpa using hw, nofun, hoff⟩
  split
  · exact h.append ‹_› hfits
  split
  · refine h.evict.append ?_ hfits
    have := h.room
    rw [evict_list, List.length_tail]
    unfold Config.journalRecords at *
    omega
  · exact h.lose _ hoff

theorem clearOldestLocal_length_le (l : List JRecord) : (clearOldestLocal l).length ≤ l.length := by
  induction l with
  | nil => rfl
  | cons r rest ih =>
    unfold clearOldestLocal
    repeat' split
    all_goals simp [ih]

/-- A take leaves records as they were, and one that the head still wants. -/
theorem mem_clearOldestLocal {l : List JRecord} (h : r ∈ clearOldestLocal l) :
    r ∈ l ∨ ∃ x ∈ l, x.wantRemote = true ∧ r = { x with wantLocal := false } := by
  induction l with
  | nil => exact .inl h
  | cons x rest ih =>
    unfold clearOldestLocal at h
    split at h
    · split at h
      · rcases List.mem_cons.1 h with rfl | h
        · exact .inr ⟨x, by simp, ‹_›, rfl⟩
        · exact .inl (by simp [h])
      · exact .inl (by simp [h])
    · rcases List.mem_cons.1 h with rfl | h
      · exact .inl (by simp)
      · rcases ih h with h | ⟨y, hy, hw, rfl⟩
        · exact .inl (by simp [h])
        · exact .inr ⟨y, by simp [hy], hw, rfl⟩

/-- R76: an accepted take. -/
theorem Journal.Sound.take (h : j.Sound on item) : j.take.Sound on item := by
  refine sound_represent ((clearOldestLocal_length_le _).trans h.room) (fun r hr => ?_) h.offline
  rcases mem_clearOldestLocal hr with hr | ⟨x, hx, hw, rfl⟩
  · exact h.records r hr
  · have hx := h.records x hx
    exact ⟨by simp [JRecord.wanted, hw], hx.pinned, hx.offline⟩

/-! ### Remote operations -/

/-- A list whose records want the host where those of a sound journal do has a settled presented loss. -/
theorem Journal.Sound.loss_of_locals (h : j.Sound on item) {l : List JRecord}
    (hl : ∀ r ∈ j.list, r.wantLocal = true → ∃ x ∈ l, x.wantLocal = true) (hn : ∀ x ∈ l, x.wantLocal = false) :
    j.presentedLoss = 0#8 := by
  refine h.loss fun r hr => ?_
  by_contra hw
  obtain ⟨x, hx, hxw⟩ := hl r hr (by simpa using hw)
  simp [hn x hx] at hxw

theorem pinFirst_map_wantLocal (k : Nat) (l : List JRecord) :
    (pinFirst k l).map (·.wantLocal) = l.map (·.wantLocal) := by
  fun_induction pinFirst k l <;> simp [*]

/-- Pinning leaves records as they were, and pins some that the head wants. -/
theorem mem_pinFirst {k : Nat} {l : List JRecord} (h : r ∈ pinFirst k l) :
    r ∈ l ∨ ∃ x ∈ l, x.wantRemote = true ∧ r = { x with pinned := true } := by
  fun_induction pinFirst k l with
  | case1 l => exact .inl h
  | case2 k => exact .inl h
  | case3 k x rest hw ih =>
    rcases List.mem_cons.1 h with rfl | h
    · exact .inr ⟨x, by simp, hw, rfl⟩
    · rcases ih h with h | ⟨y, hy, hyw, rfl⟩
      · exact .inl (by simp [h])
      · exact .inr ⟨y, by simp [hy], hyw, rfl⟩
  | case4 k x rest hw ih =>
    rcases List.mem_cons.1 h with rfl | h
    · exact .inl (by simp)
    · rcases ih h with h | ⟨y, hy, hyw, rfl⟩
      · exact .inl (by simp [h])
      · exact .inr ⟨y, by simp [hy], hyw, rfl⟩

/-- R80: a batch is composed, and goes into flight. -/
theorem Journal.Sound.composeBatch (h : j.Sound on item) : j.composeBatch.Sound on (some .batch) := by
  have hlocals := pinFirst_map_wantLocal j.batchSize.toNat j.list
  refine ⟨?_, fun r hr => ?_, fun hnone => h.loss_of_locals (fun r hr hw => ?_) hnone, fun _ => rfl⟩
  · have hlen := congrArg List.length hlocals
    simp only [List.length_map] at hlen
    exact hlen.le.trans h.room
  · rcases mem_pinFirst hr with hr | ⟨x, hx, hw, rfl⟩
    · have hx := h.records r hr
      exact ⟨hx.wanted, fun hp => ⟨(hx.pinned hp).1, nofun, rfl⟩, hx.offline⟩
    · have hx := h.records x hx
      exact ⟨hx.wanted, fun _ => ⟨hw, nofun, rfl⟩, hx.offline⟩
  · have hmem : true ∈ (pinFirst j.batchSize.toNat j.list).map (·.wantLocal) := by
      rw [hlocals]
      exact List.mem_map.2 ⟨r, hr, hw⟩
    obtain ⟨x, hx, hxw⟩ := List.mem_map.1 hmem
    exact ⟨x, hx, hxw⟩

/-- A record that stays when the batch is released was not in it, or the host still wants it. -/
theorem mem_releasePinned {l : List JRecord} : r ∈ releasePinned l ↔
    (r ∈ l ∧ r.pinned = false ∧ r.wanted = true) ∨
      ∃ x ∈ l, x.pinned = true ∧ x.wantLocal = true ∧ r = { x with wantRemote := false, pinned := false } := by
  unfold releasePinned
  rw [List.mem_filter, List.mem_map]
  constructor
  · rintro ⟨⟨x, hx, rfl⟩, hw⟩
    cases hp : x.pinned with
    | true => exact .inr ⟨x, hx, hp, by simpa [hp, JRecord.wanted] using hw, by simp⟩
    | false => exact .inl (by simpa [hp] using ⟨hx, by simpa [hp] using hw⟩)
  · rintro (⟨hx, hp, hw⟩ | ⟨x, hx, hp, hw, rfl⟩)
    · exact ⟨⟨r, hx, by simp [hp]⟩, hw⟩
    · exact ⟨⟨x, hx, by simp [hp]⟩, by simp [JRecord.wanted, hw]⟩

/-- R81, R83: the batch is released, whatever is counted as lost while the link is on. -/
theorem Journal.Sound.release (h : j.Sound on item) {lost : Byte} (hlost : on = false → lost = 0#8) :
    Journal.Sound on item' { j with list := releasePinned j.list, remoteLost := lost, batch := none } := by
  refine ⟨?_, fun r hr => ?_, fun hnone => h.loss_of_locals (fun r hr hw => ?_) hnone, hlost⟩
  · exact (List.length_filter_le _ _).trans (by simpa using h.room)
  · rcases mem_releasePinned.1 hr with ⟨hx, hp, -⟩ | ⟨x, -, -, hw, rfl⟩
    · exact (h.records r hx).ofUnpinned hp
    · exact .ofLocal hw rfl rfl
  · cases hp : r.pinned with
    | true => exact ⟨_, mem_releasePinned.2 (.inr ⟨r, hr, hp, hw, rfl⟩), hw⟩
    | false => exact ⟨r, mem_releasePinned.2 (.inl ⟨hr, hp, (h.records r hr).wanted⟩), hw⟩

theorem Journal.Sound.ackBatch (h : j.Sound on item) : j.ackBatch.Sound on item' := h.release h.offline

theorem Journal.Sound.dropBatch (h : j.Sound true item) : j.dropBatch.Sound true item' := h.release nofun

/-- R82: a batch in flight is returned. -/
theorem Journal.Sound.returnBatch (h : j.Sound true item) : j.returnBatch.Sound true item' := by
  refine ⟨by simpa [Journal.returnBatch] using h.room, fun r hr => ?_, fun hnone => h.loss fun r hr => ?_, nofun⟩
  · obtain ⟨x, hx, rfl⟩ := List.mem_map.1 hr
    exact ⟨(h.records x hx).wanted, nofun, nofun⟩
  · exact hnone { r with pinned := false } (List.mem_map.2 ⟨r, hr, rfl⟩)

/-- R88: with no batch in flight the head's wants are cleared, and the head is owed nothing. -/
theorem Journal.Sound.clearRemote (h : j.Sound on item) (hi : item ≠ some .batch) :
    j.clearRemote.Sound on' item' := by
  refine ⟨(List.length_filter_le _ _).trans (by simpa using h.room), fun r hr => ?_, fun hnone => h.loss fun r hr => ?_,
    fun _ => rfl⟩
  · obtain ⟨hr, hw⟩ := List.mem_filter.1 hr
    obtain ⟨x, hx, rfl⟩ := List.mem_map.1 hr
    have hp : x.pinned = false := h.unpinned hi hx
    exact .ofLocal (by simpa [JRecord.wanted] using hw) rfl hp
  · by_contra hw
    have hw : r.wantLocal = true := by simpa using hw
    have hleft : { r with wantRemote := false } ∈ j.clearRemote.list :=
      List.mem_filter.2 ⟨List.mem_map.2 ⟨r, hr, rfl⟩, by simp [JRecord.wanted, hw]⟩
    simpa [hw] using hnone _ hleft

end

end Sys2Proof.Machine

/-! SUPPORT. The journal's relations with the link and the item in flight: every event keeps them; and the statement on every
step. -/

namespace Sys2Proof.Machine

/-! ### The relations in the machine -/

/-- What is in flight: the item whose records are pinned, if it is the batch (R80). -/
def State.flyingItem (s : State) : Option Item := s.ob.inFlight.map (·.item)

/-- The journal's relations, with the pinned records held to the batch in flight. -/
def State.JournalRelations (s : State) : Prop := s.jr.Sound s.linkOn s.flyingItem

/-- The relations of the statements, in a sound outbound service. -/
theorem State.JournalSound.relations {s : State} (h : s.JournalSound) (ho : s.OutboundSound) : s.JournalRelations where
  room := h.room
  records r hr := by
    refine ⟨h.wanted r hr, fun hp => ?_, fun hoff => (h.offline hoff).1 r hr⟩
    obtain ⟨hw, hb⟩ := h.pinned r hr hp
    obtain ⟨f, hf, hi⟩ := ho.batch.1 hb
    exact ⟨hw, hb, by simp [State.flyingItem, hf, hi]⟩
  loss hnone := h.loss ((presented_eq_none_iff s.jr).2 hnone)
  offline hoff := (h.offline hoff).2

theorem State.JournalRelations.sound {s : State} (h : s.JournalRelations) : s.JournalSound where
  room := h.room
  wanted r hr := (h.records r hr).wanted
  pinned r hr hp := by
    obtain ⟨hw, hb, -⟩ := (h.records r hr).pinned hp
    exact ⟨hw, hb⟩
  loss hnone := h.loss ((presented_eq_none_iff s.jr).1 hnone)
  offline hoff := ⟨fun r hr => (h.records r hr).offline hoff, h.offline hoff⟩

section
variable {s t : State}

/-- The relations speak of the journal, of the link state and of the item in flight alone. -/
theorem State.JournalRelations.congr (h : s.JournalRelations) (hj : t.jr = s.jr) (hl : t.link.state = s.link.state)
    (hi : t.ob.inFlight = s.ob.inFlight) : t.JournalRelations := by
  unfold State.JournalRelations State.linkOn State.flyingItem at *
  rw [hj, hl, hi]
  exact h

/-- A link that moves to another state that is on asks no more of the journal. -/
theorem Journal.Sound.relations (h : s.jr.Sound true s.flyingItem) (ho : s.linkOn = true) : s.JournalRelations := by
  unfold State.JournalRelations
  rw [ho]
  exact h

theorem State.JournalRelations.ite {p : Prop} [Decidable p] (h : s.JournalRelations) (h' : t.JournalRelations) :
    (if p then s else t).JournalRelations := by split <;> assumption

/-! ### Records and keys -/

/-- R69: a record handed over. -/
theorem State.JournalRelations.record (h : s.JournalRelations) (e : Event) : (s.record e).JournalRelations := by
  rw [record_eq]
  exact Journal.Sound.handOver h s.stamp e

theorem State.JournalRelations.recordAll (h : s.JournalRelations) (es : List Event) :
    (s.recordAll es).JournalRelations := by
  induction es generalizing s with
  | nil => exact h
  | cons e rest ih => exact ih (h.record e)

theorem State.JournalRelations.forcedRelease (h : s.JournalRelations) : s.forcedRelease.JournalRelations :=
  h.recordAll s.ks.forcedEvents

theorem State.JournalRelations.requestWake (h : s.JournalRelations) (c : WakeCause) (detail : Byte) :
    (s.requestWake c detail).JournalRelations := by
  rw [requestWake_eq]
  exact h

theorem State.JournalRelations.enterSleep (h : s.JournalRelations) : s.enterSleep.JournalRelations := by
  cases he : s.ks.en with
  | false => rw [enterSleep_of_disabled s he]; exact h
  | true =>
    rw [enterSleep_of_enabled s he]
    exact State.JournalRelations.forcedRelease (s := { s with pr.state := .sleep }) h

theorem State.JournalRelations.finishWake (h : s.JournalRelations) : s.finishWake.JournalRelations := by
  unfold State.finishWake
  exact State.JournalRelations.record (s := { s with pr := _, link.watchdog := 0, ks.clock := 0, ks.due := false }) h _

theorem State.JournalRelations.completeScan (h : s.JournalRelations) (keys : BitVec 48) :
    (s.completeScan keys).JournalRelations := by
  unfold State.completeScan
  split
  case h_4 =>
    unfold State.wakeScan
    dsimp only
    split
    · exact State.JournalRelations.requestWake (s := { s with ks.clock := 0, ks.due := false, pins.switches := keys }) h _ _
    · exact h
  case h_5 => exact h
  all_goals
    unfold State.processScan
    rcases s.ks.scan keys s.ks.clock with ⟨ks, es⟩
    exact (h.recordAll es).congr rfl rfl rfl

/-! ### Link transitions (R41 to R48) -/

/-- R107: after return-to-source nothing is in flight, and the journal is sound with a link that is on. -/
theorem State.JournalRelations.returned (h : s.JournalRelations) :
    s.returnToSource.jr.Sound true s.returnToSource.flyingItem := by
  have h : s.jr.Sound true s.flyingItem := h.online
  unfold State.returnToSource
  split
  · exact h
  · rename_i f hf
    split
    · rename_i i hi
      exact h.setItem (by simp [State.flyingItem, hf, hi])
    · exact h.returnBatch

theorem State.JournalRelations.enableLink (h : s.JournalRelations) : s.enableLink.JournalRelations := h.online

/-- R41: whatever is in flight is returned, and the head's claims are cleared (R88). -/
theorem State.JournalRelations.disableLink (h : s.JournalRelations) : s.disableLink.JournalRelations := by
  have h1 : State.JournalRelations { s with link.tx := .idle, link.rx := Receiver.awaiting } := h
  exact h1.returned.clearRemote (by simp [State.flyingItem, returnToSource_inFlight])

theorem State.JournalRelations.join (h : s.JournalRelations) : s.join.JournalRelations := by
  unfold State.join
  split
  · exact h.returned
  · exact h.online

theorem State.JournalRelations.hush (h : s.JournalRelations) (d : Half) : (s.hush d).JournalRelations := by
  unfold State.hush
  split
  · exact h.returned
  all_goals exact h

theorem State.JournalRelations.clash (h : s.JournalRelations) : s.clash.JournalRelations := h.returned

theorem State.JournalRelations.serveRollcallBySerial (h : s.JournalRelations) (body : List Byte) :
    (s.serveRollcallBySerial body).JournalRelations := by
  unfold State.serveRollcallBySerial
  split
  · split <;> exact h.returned
  · exact h

/-! ### The tick -/

theorem State.JournalRelations.tickWatchdog (h : s.JournalRelations) : s.tickWatchdog.JournalRelations := by
  unfold State.tickWatchdog
  split
  · exact h.returned
  · split <;> exact h

theorem State.JournalRelations.tickQuiet (h : s.JournalRelations) : s.tickQuiet.JournalRelations := by
  unfold State.tickQuiet
  split
  · exact h.online
  · repeat' split
    all_goals exact h

theorem State.JournalRelations.tickRefresh (h : s.JournalRelations) : s.tickRefresh.JournalRelations := by
  unfold State.tickRefresh State.tickMailboxes
  dsimp only
  repeat' split
  all_goals exact h

theorem State.JournalRelations.tickLamps (h : s.JournalRelations) : s.tickLamps.JournalRelations :=
  .ite (State.JournalRelations.recordAll (s := { s with lm := s.lm.tick }) h _) h

theorem State.JournalRelations.tickSense (h : s.JournalRelations) (sns : BitVec 4) :
    (s.tickSense sns).JournalRelations := by
  unfold State.tickSense
  split
  case h_4 =>
    split
    · exact h.requestWake _ _
    · exact h
  case h_5 => exact h
  all_goals exact State.JournalRelations.recordAll (s := { s with st := s.st.sampleAll sns }) h _

theorem State.JournalRelations.tick (h : s.JournalRelations) (sns : BitVec 4) : (s.tick sns).JournalRelations := by
  have h0 : s.tickTime.JournalRelations := h
  have h1 : s.tickTime.tickWatchdog.tickQuiet.tickRefresh.tickLamps.tickScan.JournalRelations :=
    h0.tickWatchdog.tickQuiet.tickRefresh.tickLamps
  exact h1.tickSense sns

/-! ### POLL (R100 to R106) -/

/-- The journal is sound with a link that is on: what the stages of a POLL keep. -/
def State.Polled (s : State) : Prop := s.jr.Sound true s.flyingItem

/-- A mailbox in flight ends, whatever else becomes of it. -/
theorem State.Polled.endMailbox {f : InFlight} {i : Fin 6} (h : s.Polled) (hf : s.ob.inFlight = some f)
    (hi : f.item = .mailbox i) {item : Option Item} : s.jr.Sound true item :=
  Journal.Sound.setItem h (by simp [State.flyingItem, hf, hi])

theorem State.Polled.acknowledge {f : InFlight} (h : s.Polled) (hf : s.ob.inFlight = some f) :
    (s.acknowledge f).Polled := by
  unfold State.acknowledge
  split
  · exact h.endMailbox hf ‹_›
  · exact Journal.Sound.ackBatch h

theorem State.Polled.pollAcknowledge (h : s.Polled) (av : Bool) (tn : BitVec 3) : (s.pollAcknowledge av tn).Polled := by
  unfold State.pollAcknowledge
  split
  · exact h
  · split
    · exact h.acknowledge ‹_›
    · exact h

theorem State.Polled.pollUnacknowledged (h : s.Polled) : s.pollUnacknowledged.Polled := by
  unfold State.pollUnacknowledged
  split
  · exact h
  rename_i f hf
  split
  · rename_i hw
    unfold State.withdraw
    split
    · exact h.endMailbox hf ‹_›
    · rename_i hi
      simp [Outbound.withdrawing, hi] at hw
  split
  · have hitem : (s.resendItem f).flyingItem = s.flyingItem := by simp [State.flyingItem, State.resendItem, hf]
    unfold State.Polled
    rw [hitem]
    exact h
  · unfold State.dropItem
    split
    · exact h.endMailbox hf ‹_›
    · exact Journal.Sound.dropBatch h

theorem State.Polled.pollSelect (h : s.Polled) : s.pollSelect.Polled := by
  unfold State.pollSelect
  split
  · exact h
  rename_i hf
  split
  · exact h
  unfold State.composeItem
  split
  · exact Journal.Sound.setItem h (by simp [State.flyingItem, hf])
  · exact Journal.Sound.composeBatch h

theorem State.JournalRelations.servePoll (h : s.JournalRelations) (hj : s.joined = true) (av : Bool) (tn : BitVec 3) :
    (s.servePoll av tn).JournalRelations := by
  have hpolled : (s.pollStages av tn).Polled :=
    State.Polled.pollSelect (State.Polled.pollUnacknowledged (State.Polled.pollAcknowledge (Journal.Sound.online h) av tn))
  have hon : (s.pollStages av tn).linkOn = true :=
    linkOn_of_joined (by rw [pollStages_link]; exact (joined_iff s).1 hj)
  unfold State.servePoll State.replyPoll
  split <;> exact Journal.Sound.relations hpolled hon

/-! ### DELIVER, PEEK and writes -/

theorem State.JournalRelations.applyDelivery (h : s.JournalRelations) (chan : Byte) (payload : List Byte) (v : Verdict)
    (stores broadcast : Bool) : (s.applyDelivery chan payload v stores broadcast).JournalRelations := by
  rw [applyDelivery_eq]
  exact h

theorem State.JournalRelations.serveDeliver (h : s.JournalRelations) (tn : BitVec 3) (chan : Byte) (payload : List Byte) :
    (s.serveDeliver tn chan payload).JournalRelations := by
  show (s.deliver tn chan payload).1.JournalRelations
  unfold State.deliver
  dsimp only
  repeat' split
  case isFalse.isFalse.isFalse.isFalse => exact h.applyDelivery ..
  all_goals exact h

theorem State.JournalRelations.deliverAll (h : s.JournalRelations) (chan : Byte) (payload : List Byte) :
    (s.deliverAll chan payload).JournalRelations := by
  have h1 : State.JournalRelations (State.raise1 iqDropFlag { s with ib.drops := counted s.ib.drops }) := h
  unfold State.deliverAll
  dsimp only
  repeat' split
  · exact h
  · exact h1.applyDelivery ..
  · exact h.applyDelivery ..

theorem State.JournalRelations.servePeek (h : s.JournalRelations) (addr count : Byte) :
    (s.servePeek addr count).JournalRelations := by
  have h1 : (s.captureSpan addr count.toNat).JournalRelations := by rw [captureSpan_eq]; exact h
  exact .ite h h1

theorem State.JournalRelations.writeLinkCtl (h : s.JournalRelations) (v : Byte) : (s.writeLinkCtl v).JournalRelations :=
  have h1 : State.JournalRelations { s with link.rate := v.extractLsb' 1 2, link.en := v.getLsbD 0 } := h
  .ite h1.enableLink (.ite h1.disableLink h1)

theorem State.JournalRelations.writeScanCtl (h : s.JournalRelations) (v : Byte) : (s.writeScanCtl v).JournalRelations :=
  have h1 : State.JournalRelations { s with ks.en := v.getLsbD 0, ks.sleepWake := v.getLsbD 1 } := h
  .ite h (.ite h1.forcedRelease h1)

/-- After a restart the journal is empty (R90). -/
theorem softRestart_journalRelations (s : State) : s.softRestart.JournalRelations := .ofNil rfl rfl rfl

/-- A write of any register by either master. -/
theorem State.JournalRelations.applyWrite (h : s.JournalRelations) (m : Master) (r : Reg) (v : Byte) :
    (s.applyWrite m r v).JournalRelations := by
  cases r
  case restart =>
    cases m with
    | host => exact softRestart_journalRelations s
    | head => exact h
  case linkCtl => exact h.writeLinkCtl v
  case scanCtl => exact h.writeScanCtl v
  case jtake => exact Journal.Sound.take h
  case jbatch | jroute | jpolicy => exact ⟨h.room, h.records, h.loss, h.offline⟩
  case localTime i => simp only [State.applyWrite, State.writeLocalTime]; split <;> cases m <;> exact h
  case mbCmd => simp only [State.applyWrite, State.writeMbCmd]; (repeat' split) <;> exact h
  case iflags0 => simp only [State.applyWrite, State.clearFlags0]; split <;> exact h
  all_goals cases m <;> exact h

theorem State.JournalRelations.writeSpan (h : s.JournalRelations) (addr : Byte) (data : List Byte) :
    (s.writeSpan addr data).JournalRelations := by
  induction data generalizing addr s with
  | nil => exact h
  | cons v rest ih => exact ih (h.applyWrite .head (regAt addr) v) (addr + 1)

theorem State.JournalRelations.servePoke (h : s.JournalRelations) (addr : Byte) (data : List Byte) :
    (s.servePoke addr data).JournalRelations := by
  unfold State.servePoke
  split
  · exact h
  split
  · exact h
  · exact .ite (h.writeSpan addr data) (h.writeSpan addr data)

/-! ### Every frame -/

theorem State.JournalRelations.dispatch (h : s.JournalRelations) (f : Frame) : (s.dispatch f).JournalRelations := by
  unfold State.dispatch
  cases f.kind with
  | rollcall => exact .ite (.ite h.join h) (h.serveRollcallBySerial f.body)
  | poll =>
    dsimp only
    split
    · exact h.servePoll ‹_› ..
    · exact h
  | deliver => exact .ite (.ite (h.deliverAll ..) h) (.ite (h.serveDeliver ..) h)
  | peek => exact .ite (h.servePeek ..) h
  | poke => exact .ite (h.servePoke ..) h
  | hush => exact h.hush _
  | beacon => exact .ite h h
  | hello | answer | nothing | receipt | regval => exact h

theorem State.JournalRelations.processFrame (h : s.JournalRelations) (c : FrameClass) :
    (s.processFrame c).JournalRelations := by
  cases c with
  | valid f => exact .ite (State.JournalRelations.dispatch (s := s.hearHead) h f) (.ite h.clash h)
  | badFormat | badCrc | unknownKind | misdirected => exact h

theorem State.JournalRelations.completeFrame (h : s.JournalRelations) (bytes : List RxByte) :
    (s.completeFrame bytes).JournalRelations := by
  have h1 : State.JournalRelations { s with link.rx := Receiver.completed } := h
  unfold State.completeFrame
  dsimp only
  split
  · exact .ite (h1.requestWake .link 0) h1
  · exact h1
  all_goals exact h1.processFrame _

/-! ### SPI bytes -/

theorem State.JournalRelations.loadOut (h : s.JournalRelations) : s.loadOut.JournalRelations := by rw [loadOut_eq]; exact h

theorem State.JournalRelations.advance (h : s.JournalRelations) : s.advance.JournalRelations := .ite h h

theorem State.JournalRelations.fetch (h : s.JournalRelations) : s.fetch.JournalRelations := by rw [fetch_eq]; exact h

theorem State.JournalRelations.commandByte (h : s.JournalRelations) (b : Byte) : (s.commandByte b).JournalRelations := by
  have h1 (c : HostCommand) (p : Phase) : (s.setCommand c p).JournalRelations := h
  rw [commandByte_eq]
  exact State.JournalRelations.loadOut (.ite ((h1 _ _).requestWake .host 0) (h1 _ _))

theorem State.JournalRelations.readByte (h : s.JournalRelations) : s.readByte.JournalRelations := by
  have h1 : s.settleCapture.JournalRelations := by rw [settleCapture_eq]; exact h
  exact .ite h1.advance.fetch h1.advance.loadOut

theorem State.JournalRelations.hostWriteByte (h : s.JournalRelations) (v : Byte) :
    (s.hostWriteByte v).JournalRelations := by
  unfold State.hostWriteByte
  dsimp only
  split
  · refine State.JournalRelations.loadOut (State.JournalRelations.advance ?_)
    rw [captureRefusal_eq]
    exact h
  · exact .ite (h.applyWrite ..) (h.applyWrite ..).advance.loadOut

/-! ### Every event and every command -/

theorem State.JournalRelations.cancelPending (h : s.JournalRelations) : s.cancelPending.JournalRelations := .ite h h

theorem State.JournalRelations.startReply (h : s.JournalRelations) : s.startReply.JournalRelations := by
  unfold State.startReply; split <;> exact h

/-- Every event keeps the journal's relations. -/
theorem IsEvent.journalRelations {due : State → Bool} {f : State → State} (e : IsEvent due f) (h : s.JournalRelations) :
    (f s).JournalRelations := by
  cases e with
  | restart => exact softRestart_journalRelations s
  | wakeEnd => exact h.finishWake
  | scan _ keys => exact h.completeScan keys
  | tick _ sns => exact h.tick sns
  | sleepEntry => exact h.enterSleep
  | frame bytes => exact h.completeFrame (bytes s)
  | frameStart | discardedByte => exact h.cancelPending
  | replyStart => exact h.startReply
  | commandByte b => exact h.commandByte b
  | addressByte b => exact State.JournalRelations.loadOut h
  | turnaround => exact State.JournalRelations.fetch h
  | readData => exact h.readByte
  | statusStream | ignoredByte => exact h.loadOut
  | hostWrite _ v => exact h.hostWriteByte v
  | hunting | replyEnd | replyAbort | replyCancel | csnRise | csnFall | csnWhileHeld => exact h

theorem State.Reaches.journalRelations (hr : s.Reaches t) (h : s.JournalRelations) : t.JournalRelations := by
  induction hr with
  | refl => exact h
  | tail _ hstep ih =>
    obtain ⟨due, f, e, -, rfl⟩ := hstep
    exact e.journalRelations ih

/-- Every command keeps the journal's relations. -/
theorem exec_journalRelations {c : Instr} (h : s.JournalRelations) (he : exec c s = .next t) : t.JournalRelations := by
  cases hr : ofReset c with
  | false =>
    obtain ⟨u, hu, hreach⟩ := exec_reaches c s hr
    obtain rfl : u = t := by simpa [hu] using he
    exact hreach.journalRelations h
  | true =>
    match c, hr with
    | .powerOnReset p, _ | .pinReset p, _ =>
      cases he
      exact .ite h (.ofNil rfl rfl rfl)
    | .resetHeldLow, _ | .supplyBelowRange, _ =>
      cases he
      exact h

end

end Sys2Proof.Machine

namespace Sys2Proof.Proofs

open Sys2Proof.Machine

/-- Settles O57: the batch relation of a sound outbound service ties the pinned records to the item in flight, and so tied every
event that a step can be made of keeps the journal's relations. -/
theorem stepKeepsJournal : Obligations.StepKeepsJournal := fun _ _ _ ho hj h =>
  (step_keeps (P := State.JournalRelations) (fun _ _ hs => hs) (fun _ _ _ => exec_journalRelations) (hj.relations ho) h).sound

end Sys2Proof.Proofs

/-! SUPPORT. A POLL that acknowledges the item in flight, stage by stage; and the statement on it. -/

namespace Sys2Proof.Machine

section
variable {s : State} {f : InFlight}

/-- R100: a POLL with AV 1 and the turn of the item in flight acknowledges it. -/
theorem pollAcknowledge_of_turn (hf : s.ob.inFlight = some f) : s.pollAcknowledge true f.turn = s.acknowledge f := by
  simp [State.pollAcknowledge, hf]

/-- Stage 2 has nothing to do once nothing is in flight. -/
theorem pollUnacknowledged_of_none (hf : s.ob.inFlight = none) : s.pollUnacknowledged = s := by
  simp [State.pollUnacknowledged, hf]

theorem acknowledge_inFlight (s : State) (f : InFlight) : (s.acknowledge f).ob.inFlight = none := by
  unfold State.acknowledge
  split <;> rfl

/-- After an acknowledgement the POLL goes on to stage 3. -/
theorem pollStages_of_turn (hf : s.ob.inFlight = some f) : s.pollStages true f.turn = (s.acknowledge f).pollSelect := by
  rw [State.pollStages, pollAcknowledge_of_turn hf, pollUnacknowledged_of_none (acknowledge_inFlight s f)]

theorem acknowledge_of_mailbox {i : Fin 6} (hi : f.item = .mailbox i) : s.acknowledge f = { s with
    ob := { s.ob.updBox i Mailbox.finish with inFlight := none, nextTurn := f.turn + 1 }
    ia.mbDone := s.ia.mbDone ||| bit true i.val
    ia.flags0 := s.ia.flags0 ||| mbDoneFlag } := by
  rw [State.acknowledge, hi]
  rfl

theorem acknowledge_of_batch (hi : f.item = .batch) : s.acknowledge f = { s with
    ob := { s.ob with inFlight := none, nextTurn := f.turn + 1 }, jr := s.jr.ackBatch } := by
  rw [State.acknowledge, hi]
  rfl

end

end Sys2Proof.Machine

namespace Sys2Proof.Proofs

open Sys2Proof.Machine

/-- Settles O28: stage 1 acknowledges the item, stage 2 finds none, and the POLL goes on to stage 3. -/
theorem pollAcknowledges : Obligations.PollAcknowledges := by
  intro f s hs ha hd hj hf
  have hpoll : exec (.poll true f.turn) s = .next (State.replyPoll (State.pollSelect (s.heard.acknowledge f))) := by
    rw [poll_of_ready hs ha hd hj, pollStages_of_turn (s := s.heard) hf]
  refine ⟨fun i hi => ?_, fun hi => ?_⟩
  · rw [hpoll, acknowledge_of_mailbox hi]
    rfl
  · rw [hpoll, acknowledge_of_batch hi]
    rfl

end Sys2Proof.Proofs

/-! SUPPORT. An event handed to the journal, equation by equation; and the statement on it. -/

namespace Sys2Proof.Machine

/-! ### A record joins the journal (R70, R74, R85) -/

section
variable {j : Journal} {o r : JRecord} {rest : List JRecord}

/-- R74: the first record with want_local is presented, and takes the local lost counter. -/
theorem append_of_presented (hr : r.wantLocal = true) (hnone : ∀ x ∈ j.list, x.wantLocal = false) : j.append r =
    { j with list := j.list ++ [r], nextSeq := j.nextSeq + 1, presentedLoss := j.localLost, localLost := 0 } := by
  rw [append_record_eq, if_pos]
  simpa [hr] using hnone

/-- R70: any other record joins the list alone. -/
theorem append_of_waiting (h : r.wantLocal = false ∨ ∃ x ∈ j.list, x.wantLocal = true) :
    j.append r = { j with list := j.list ++ [r], nextSeq := j.nextSeq + 1 } := by
  rw [append_record_eq, if_neg]
  simpa [imp_iff_not_or] using h

/-- R85: a record that takes the place of one that the host wanted; if the host wants another, the lost count is reported with
it, else it waits. -/
theorem evict_append_of_wantLocal (hl : j.list = o :: rest) (ho : o.wantLocal = true) : j.evict.append r = { j with
    list := rest ++ [r], nextSeq := j.nextSeq + 1
    remoteLost := if o.wantRemote then counted j.remoteLost else j.remoteLost
    presentedLoss := if (rest ++ [r]).any (·.wantLocal) then counted (satAdd j.localLost j.presentedLoss) else 0
    localLost := if (rest ++ [r]).any (·.wantLocal) then 0 else counted (satAdd j.localLost j.presentedLoss) } := by
  rw [evict_of_wantLocal hl ho, represent_eq, append_record_eq]
  cases hrest : rest.any (·.wantLocal) <;> cases hr : r.wantLocal <;> simp [hrest, hr]

/-- R85: a record that takes the place of one that the host did not want. -/
theorem evict_append_of_not_wantLocal (hl : j.list = o :: rest) (ho : o.wantLocal = false) : j.evict.append r = { j with
    list := rest ++ [r], nextSeq := j.nextSeq + 1
    remoteLost := if o.wantRemote then counted j.remoteLost else j.remoteLost
    presentedLoss := if r.wantLocal && !rest.any (·.wantLocal) then j.localLost else j.presentedLoss
    localLost := if r.wantLocal && !rest.any (·.wantLocal) then 0 else j.localLost } := by
  rw [evict_of_not_wantLocal hl ho, append_record_eq]
  cases r.wantLocal && !rest.any (·.wantLocal) <;> simp

end

/-! ### The event in the machine -/

/-- The record that an event handed over now becomes. -/
abbrev State.recordOf (s : State) (e : Event) : JRecord := s.jr.recordOf s.linkOn s.stamp e

section
variable {s : State} {e : Event}

/-- R71: an event that is routed to no consumer is not recorded. -/
theorem record_of_unwanted (hw : (s.recordOf e).wanted = false) : s.record e = s := by
  rw [record_eq, handOver_eq, if_pos hw]
  rfl

section
variable (hw : (s.recordOf e).wanted = true)
include hw

/-- R72: a journal with room takes the record. -/
theorem record_of_room (hroom : s.jr.list.length < 64) :
    s.record e = { s with jr := s.jr.append (s.recordOf e) } := by
  have hw : ¬(s.jr.recordOf s.linkOn s.stamp e).wanted = false := by simpa using hw
  rw [record_eq, handOver_eq, if_neg hw, if_pos hroom]
  rfl

/-- R85, R87: the record takes the place of the oldest, which is not pinned, under policy 1. -/
theorem record_of_evicting (hfull : 64 ≤ s.jr.list.length) (hp : s.jr.policy = 1#8) (ho : s.jr.oldestPinned = false) :
    s.record e = { s with
      jr := s.jr.evict.append (s.recordOf e)
      ia.flags1 := if s.jr.oldestLocal then s.ia.flags1 ||| jLossFlag else s.ia.flags1 } := by
  have hw : ¬(s.jr.recordOf s.linkOn s.stamp e).wanted = false := by simpa using hw
  rw [record_eq, handOver_eq, if_neg hw, if_neg (Nat.not_lt.2 hfull), if_pos ⟨hp, ho⟩]

/-- R84, R86, R87: the event is lost to each consumer that it was routed to. -/
theorem record_of_lost (hfull : 64 ≤ s.jr.list.length) (hp : s.jr.policy = 1#8 → s.jr.oldestPinned = true) :
    s.record e = { s with
      jr := s.jr.lose (s.recordOf e).wantLocal (s.recordOf e).wantRemote
      ia.flags1 := if (s.recordOf e).wantLocal then s.ia.flags1 ||| jLossFlag else s.ia.flags1 } := by
  have hw : ¬(s.jr.recordOf s.linkOn s.stamp e).wanted = false := by simpa using hw
  have hp : ¬(s.jr.policy = 1#8 ∧ s.jr.oldestPinned = false) := by simpa using hp
  rw [record_eq, handOver_eq, if_neg hw, if_neg (Nat.not_lt.2 hfull), if_neg hp]

end

end

end Sys2Proof.Machine

namespace Sys2Proof.Proofs

open Sys2Proof.Machine

/-- Settles O31: not recorded, appended, lost, or appended after an eviction; where a record is appended, whether it becomes the
presented one. -/
theorem journalTakesEvent : Obligations.JournalTakesEvent := by
  intro e s routing forLocal forRemote r lost
  refine ⟨fun hlocal hremote => record_of_unwanted (Bool.or_eq_false_iff.2 ⟨hlocal, hremote⟩), fun h => ?_⟩
  have hw : (s.recordOf e).wanted = true := Bool.or_eq_true_iff.2 h
  refine ⟨fun hroom => ⟨fun hwait => ?_, fun hlocal hnone => ?_⟩, fun hfull hpolicy => ?_, ?_⟩
  · rw [record_of_room hw hroom, append_of_waiting hwait]
    rfl
  · rw [record_of_room hw hroom, append_of_presented hlocal hnone]
    rfl
  · exact record_of_lost hw hfull fun hp => absurd hp hpolicy
  · intro o rest hlist hfull hpolicy
    have holdest : s.jr.oldestPinned = o.pinned := by simp [Journal.oldestPinned, hlist]
    have hlocal : s.jr.oldestLocal = o.wantLocal := by simp [Journal.oldestLocal, hlist]
    refine ⟨fun hpin => record_of_lost hw hfull fun _ => holdest.trans hpin, fun hpin => ⟨fun ho => ?_, fun ho => ?_⟩⟩
    · rw [record_of_evicting hw hfull hpolicy (holdest.trans hpin), evict_append_of_wantLocal hlist ho, hlocal, ho]
      rfl
    · rw [record_of_evicting hw hfull hpolicy (holdest.trans hpin), evict_append_of_not_wantLocal hlist ho, hlocal, ho]
      rfl

end Sys2Proof.Proofs

/-! SUPPORT. A take by the host: the presented record, and the list after it; and the statement on it. -/

namespace Sys2Proof.Machine

section
variable {s : State} {older newer : List JRecord} {r : JRecord} {v : Byte}

/-- R74: the presented record is the oldest with want_local. -/
theorem presented_of_split {j : Journal} (hl : j.list = older ++ r :: newer) (ho : ∀ x ∈ older, x.wantLocal = false)
    (hr : r.wantLocal = true) : j.presented = some r := by
  have hnone : older.find? (·.wantLocal) = none := by simpa using ho
  simp [Journal.presented, hl, List.find?_append, hnone, hr]

/-- R76: the presented record's want_local is cleared, and a record with no want left goes. -/
theorem clearOldestLocal_of_split (ho : ∀ x ∈ older, x.wantLocal = false) (hr : r.wantLocal = true) :
    clearOldestLocal (older ++ r :: newer) =
      older ++ (if r.wantRemote then [{ r with wantLocal := false }] else []) ++ newer := by
  induction older with
  | nil => cases hw : r.wantRemote <;> simp [clearOldestLocal, hr, hw]
  | cons x rest ih =>
    have hx : x.wantLocal = false := ho x (by simp)
    have hrest := ih fun y hy => ho y (by simp [hy])
    simp only [List.append_assoc] at hrest
    simp [clearOldestLocal, hx, hrest]

/-- R76: after an accepted take the next record with want_local is presented, and takes the local lost counter (R74). -/
theorem take_of_split {j : Journal} (hl : j.list = older ++ r :: newer) (ho : ∀ x ∈ older, x.wantLocal = false)
    (hr : r.wantLocal = true) : j.take = { j with
      list := older ++ (if r.wantRemote then [{ r with wantLocal := false }] else []) ++ newer
      presentedLoss := if newer.any (·.wantLocal) then j.localLost else 0
      localLost := if newer.any (·.wantLocal) then 0 else j.localLost } := by
  have hmore : (older ++ (if r.wantRemote then [{ r with wantLocal := false }] else []) ++ newer).any (·.wantLocal) =
      newer.any (·.wantLocal) := by
    have holder : older.any (·.wantLocal) = false := by simpa using ho
    cases r.wantRemote <;> simp [holder]
  rw [Journal.take, hl, clearOldestLocal_of_split ho hr, represent_eq]
  simp only [hmore]

/-- R77: a take by the host is refused unless it names the presented record. -/
theorem check_jtake (s : State) (v : Byte) :
    s.check .host .jtake v = if s.jr.presented.map (·.seq) = some v then none else some .mismatch := by
  by_cases h : s.jr.presented.map (·.seq) = some v <;>
    simp [State.check, Reg.writeClass, State.notOwner, State.busy, outOfRange, State.mismatch, -Option.map_eq_some_iff, h]

theorem exec_jtake_of_named (hs : s.writeReady .host 0x3F#8) (h : s.jr.presented.map (·.seq) = some v) :
    exec (.jtake v) s = .next (State.closed .host { s with jr := s.jr.take }) :=
  congrArg Host.Outcome.next (writeBy_accepted hs ((check_jtake s v).trans (if_pos h)) nofun)

theorem exec_jtake_of_mismatch (hs : s.writeReady .host 0x3F#8) (h : s.jr.presented.map (·.seq) ≠ some v) :
    exec (.jtake v) s = .next (s.refusedWrite .host 0x3F#8 .mismatch) :=
  congrArg Host.Outcome.next (writeBy_refused hs ((check_jtake s v).trans (if_neg h)))

end

end Sys2Proof.Machine

namespace Sys2Proof.Proofs

open Sys2Proof.Machine

/-- Settles O48: the take names the presented record or it does not; the head's write has the class LOCAL_ONLY. -/
theorem journalTake : Obligations.JournalTake := by
  refine ⟨fun v s hs => ⟨fun older newer r hl ho hr => ?_, fun hnone => ?_⟩, fun v s hs => ?_⟩
  · have hp : s.jr.presented.map (·.seq) = some r.seq := by rw [presented_of_split hl ho hr]; rfl
    refine ⟨fun hv => ?_, fun hv => exec_jtake_of_mismatch hs ?_⟩
    · rw [exec_jtake_of_named hs (hv ▸ hp), take_of_split hl ho hr]
    · rw [hp]
      simpa using Ne.symm hv
  · refine exec_jtake_of_mismatch hs ?_
    rw [(presented_eq_none_iff s.jr).2 hnone]
    nofun
  · exact congrArg Host.Outcome.next (writeBy_refused hs (check_of_localOnly rfl))

end Sys2Proof.Proofs

/-! SUPPORT. The outbound service: mailboxes at rest, the item in flight, and the relations of R91 case by case of what becomes of
an item. -/

namespace Sys2Proof.Machine

/-! ### One mailbox -/

/-- R99: at an elapse an EMPTY mailbox becomes READY, and any other is counted stale. -/
theorem elapse_eq (b : Mailbox) : b.elapse = { b with
    state := if b.state = .empty then .ready else b.state
    stales := if b.state = .empty then b.stales else counted b.stales
    running := if b.mail.period = 0#16 then false else b.running
    remaining := if b.mail.period = 0#16 then 0 else b.mail.ticks } := by
  unfold Mailbox.elapse
  by_cases he : b.state = .empty <;> by_cases hp : b.mail.period = 0#16 <;> simp [he, hp]

/-- A mailbox that is not in flight: neither OFFERED nor with a cancel pending (R93, R96). -/
structure Mailbox.AtRest (b : Mailbox) : Prop where
  home : b.state ≠ .offered
  settled : b.cancelPending = false

/-- A change of a mailbox that neither offers it nor ends its offer, and leaves no cancel pending but in flight. -/
structure Mailbox.Keeps (b b' : Mailbox) : Prop where
  offered : b'.state = .offered ↔ b.state = .offered
  cancel : b'.cancelPending = true → b'.state = .offered

section
variable {b : Mailbox}

theorem Mailbox.AtRest.offered_iff (h : b.AtRest) {p : Prop} (hp : ¬p) : b.state = .offered ↔ p := iff_of_false h.home hp

theorem Mailbox.AtRest.no_cancel (h : b.AtRest) {p : Prop} (hc : b.cancelPending = true) : p :=
  absurd (h.settled.symm.trans hc) nofun

theorem finish_atRest (b : Mailbox) : b.finish.AtRest := ⟨nofun, rfl⟩

/-- R103: a drop ends the item like an acknowledgement, and counts. -/
theorem drop_atRest (b : Mailbox) : Mailbox.AtRest { b.finish with drops := counted b.drops } := ⟨nofun, rfl⟩

/-- R107: a mailbox handed back is EMPTY or READY. -/
theorem giveBack_atRest (b : Mailbox) : b.giveBack.AtRest := by
  cases hc : b.cancelPending with
  | true =>
    rw [Mailbox.giveBack, if_pos hc]
    exact ⟨nofun, rfl⟩
  | false =>
    rw [Mailbox.giveBack, if_neg (by simp [hc])]
    exact ⟨nofun, hc⟩

section
variable (hb : b.cancelPending = true → b.state = .offered)
include hb

theorem keeps_refl : b.Keeps b := ⟨.rfl, hb⟩

theorem keeps_load (m : Mail) : b.Keeps (b.load m) := ⟨.rfl, hb⟩

/-- R96: an EMPTY mailbox becomes READY. -/
theorem keeps_arm (he : b.state = .empty) : b.Keeps b.arm := by
  have hc : b.cancelPending = false := by
    by_contra hc
    have := hb (by simpa using hc)
    simp [he] at this
  unfold Mailbox.arm
  split <;> exact ⟨by simp [he], by simp [hc]⟩

/-- R96: a cancel of an OFFERED mailbox waits; in the other states the mailbox is EMPTY after it. -/
theorem keeps_cancel : b.Keeps b.cancel := by
  unfold Mailbox.cancel
  split <;> rename_i hs
  · exact ⟨.rfl, hb⟩
  · exact ⟨by simp [hs], fun hc => by simp [hs] at hb; simp [hb] at hc⟩
  · exact ⟨.rfl, fun _ => hs⟩

/-- R99: an elapse leads from EMPTY to READY, and leaves the other states. -/
theorem keeps_elapse : b.Keeps b.elapse := by
  rw [elapse_eq]
  by_cases he : b.state = .empty <;> exact ⟨by simp [he], by simpa [he] using hb⟩

theorem keeps_tick : b.Keeps b.tick := by
  unfold Mailbox.tick
  split
  · exact keeps_elapse hb
  · split <;> exact ⟨.rfl, hb⟩

end

end

/-! ### The relations of one outbound service -/

/-- What is in flight, if anything. -/
def Outbound.flying (ob : Outbound) : Option Item := ob.inFlight.map (·.item)

/-- The relations of R91, with the link state and the journal's batch that they speak of. -/
structure Outbound.Sound (state : LinkState) (batch : Option Byte) (ob : Outbound) : Prop where
  joined : ob.inFlight ≠ none → state = .joined
  turn : ∀ f, ob.inFlight = some f → f.turn = ob.nextTurn
  offered : ∀ i : Fin 6, ob.boxes[i].state = .offered ↔ ob.flying = some (.mailbox i)
  batch : batch ≠ none ↔ ob.flying = some .batch
  cancel : ∀ i : Fin 6, ob.boxes[i].cancelPending = true → ob.boxes[i].state = .offered

theorem flying_of_none {ob : Outbound} (hf : ob.inFlight = none) : ob.flying = none := by simp [Outbound.flying, hf]

theorem flying_of_some {ob : Outbound} {f : InFlight} (hf : ob.inFlight = some f) : ob.flying = some f.item := by
  simp [Outbound.flying, hf]

/-- The mailboxes after a change of one of them. -/
theorem updBox_box (ob : Outbound) (i : Fin 6) (g : Mailbox → Mailbox) (j : Fin 6) :
    (ob.updBox i g).boxes[j] = if i = j then g ob.boxes[i] else ob.boxes[j] := by
  simp [Outbound.updBox, Vector.getElem_set, Fin.ext_iff]

section
variable {state state' : LinkState} {batch : Option Byte} {ob : Outbound} {i : Fin 6} {g : Mailbox → Mailbox}
  {turn : BitVec 3} {passed : Nat}

/-- With nothing in flight the relations are that no batch and no mailbox is. -/
theorem Outbound.sound_of_idle (hf : ob.inFlight = none) (hb : batch = none) (hr : ∀ i : Fin 6, ob.boxes[i].AtRest) :
    ob.Sound state batch where
  joined h := absurd hf h
  turn f h := by simp [hf] at h
  offered i := (hr i).offered_iff (by simp [flying_of_none hf])
  batch := by simp [flying_of_none hf, hb]
  cancel i := (hr i).no_cancel

/-- A mailbox that is not the item in flight is at rest. -/
theorem Outbound.Sound.atRest (h : ob.Sound state batch) (hi : ob.flying ≠ some (.mailbox i)) : ob.boxes[i].AtRest where
  home ho := hi ((h.offered i).1 ho)
  settled := by
    by_contra hc
    exact hi ((h.offered i).1 (h.cancel i (by simpa using hc)))

/-- Without the batch in flight the journal has none. -/
theorem Outbound.Sound.no_batch (h : ob.Sound state batch) (hi : ob.flying ≠ some .batch) : batch = none := by
  by_contra hb
  exact hi (h.batch.1 hb)

/-- With nothing in flight the next turn and the link state are free. -/
theorem Outbound.Sound.idle (h : ob.Sound state batch) (hf : ob.inFlight = none) :
    Outbound.Sound state' batch { ob with nextTurn := turn } :=
  have hn := flying_of_none hf
  sound_of_idle hf (h.no_batch (by simp [hn])) fun _ => h.atRest (by simp [hn])

/-- Only in JOINED is anything in flight. -/
theorem Outbound.Sound.idle_of_state (h : ob.Sound state batch) (hs : state ≠ .joined) : ob.inFlight = none := by
  by_contra hf
  exact hs (h.joined hf)

/-! ### Mailboxes that stay in flight or at rest -/

/-- Changes of mailboxes that neither offer one nor end an offer. -/
theorem Outbound.Sound.setBoxes (h : ob.Sound state batch) {boxes : Vector Mailbox 6}
    (hk : ∀ i : Fin 6, ob.boxes[i].Keeps boxes[i]) : Outbound.Sound state batch { ob with boxes := boxes } :=
  ⟨h.joined, h.turn, fun i => (hk i).offered.trans (h.offered i), h.batch, fun i => (hk i).cancel⟩

theorem Outbound.Sound.updBox (h : ob.Sound state batch) (hk : ob.boxes[i].Keeps (g ob.boxes[i])) :
    (ob.updBox i g).Sound state batch := by
  refine h.setBoxes (boxes := (ob.updBox i g).boxes) fun j => ?_
  rw [updBox_box]
  split
  · rename_i hij
    exact hij ▸ hk
  · exact keeps_refl (h.cancel j)

/-! ### An item that ends (R92, R107) -/

/-- A mailbox in flight ends: acknowledged, withdrawn, dropped or handed back. -/
theorem Outbound.Sound.endMailbox (h : ob.Sound state batch) (hi : ob.flying = some (.mailbox i))
    (hg : (g ob.boxes[i]).AtRest) :
    Outbound.Sound state' batch { ob.updBox i g with inFlight := none, nextTurn := turn } := by
  refine sound_of_idle rfl (h.no_batch (by simp [hi])) fun j => ?_
  show (ob.updBox i g).boxes[j].AtRest
  rw [updBox_box]
  split
  · exact hg
  · exact h.atRest (by simpa [hi] using ‹¬i = j›)

/-- The batch in flight ends: acknowledged, dropped or handed back. -/
theorem Outbound.Sound.endBatch (h : ob.Sound state batch) (hi : ob.flying = some .batch) :
    Outbound.Sound state' none { ob with inFlight := none, nextTurn := turn } :=
  sound_of_idle rfl rfl fun _ => h.atRest (by simp [hi])

/-! ### An item that is sent (R101, R106) -/

theorem Outbound.Sound.resend (h : ob.Sound state batch) {f : InFlight} (hf : ob.inFlight = some f) (n : Nat) :
    Outbound.Sound state batch { ob with inFlight := some { f with resends := n } } := by
  have hfly : Outbound.flying { ob with inFlight := some { f with resends := n } } = ob.flying := (flying_of_some hf).symm
  refine ⟨fun _ => h.joined (by simp [hf]), ?_, fun i => hfly ▸ h.offered i, hfly ▸ h.batch, h.cancel⟩
  rintro _ ⟨⟩
  exact h.turn f hf

/-- A mailbox is offered at the next turn. -/
theorem Outbound.Sound.sendMailbox (h : ob.Sound state batch) (hf : ob.inFlight = none)
    (hg : (g ob.boxes[i]).state = .offered) : Outbound.Sound .joined batch { ob.updBox i g with
      inFlight := some { item := .mailbox i, turn := ob.nextTurn, resends := 0 }, passed := passed } := by
  have hn := flying_of_none hf
  have hrest (j : Fin 6) : ob.boxes[j].AtRest := h.atRest (by simp [hn])
  refine ⟨fun _ => rfl, ?_, fun j => ?_, by simp [h.no_batch (by simp [hn]), Outbound.flying], fun j => ?_⟩
  · rintro _ ⟨⟩
    rfl
  · show (ob.updBox i g).boxes[j].state = .offered ↔ some (Item.mailbox i) = some (.mailbox j)
    rw [updBox_box]
    split
    · exact iff_of_true hg (by rw [‹i = j›])
    · exact (hrest j).offered_iff (by simpa using ‹¬i = j›)
  · show (ob.updBox i g).boxes[j].cancelPending = true → (ob.updBox i g).boxes[j].state = .offered
    rw [updBox_box]
    split
    · exact fun _ => hg
    · exact (hrest j).no_cancel

/-- The batch is sent at the next turn. -/
theorem Outbound.Sound.sendBatch (h : ob.Sound state batch) (hf : ob.inFlight = none) (lost : Byte) :
    Outbound.Sound .joined (some lost) { ob with
      inFlight := some { item := .batch, turn := ob.nextTurn, resends := 0 }, passed := passed } := by
  have hrest (j : Fin 6) : ob.boxes[j].AtRest := h.atRest (by simp [flying_of_none hf])
  refine ⟨fun _ => rfl, ?_, fun j => (hrest j).offered_iff nofun, by simp [Outbound.flying], fun j => (hrest j).no_cancel⟩
  rintro _ ⟨⟩
  rfl

end

/-! ### What the journal's own operations leave of the batch -/

@[simp] theorem represent_batch (j : Journal) : j.represent.batch = j.batch := by rw [represent_eq]

@[simp] theorem append_batch (r : JRecord) (j : Journal) : (j.append r).batch = j.batch := by
  rw [append_record_eq]; split <;> rfl

@[simp] theorem evict_batch (j : Journal) : j.evict.batch = j.batch := by
  cases hl : j.list with
  | nil => simp [Journal.evict, hl]
  | cons r rest =>
    cases hw : r.wantLocal with
    | true => rw [evict_of_wantLocal hl hw]; simp
    | false => rw [evict_of_not_wantLocal hl hw]

/-- An event that is handed over changes no batch in flight (R84 to R86). -/
@[simp] theorem handOver_batch (linkOn : Bool) (stamp : Half) (j : Journal) (e : Event) :
    (j.handOver linkOn stamp e).1.batch = j.batch := by
  rw [handOver_eq]
  split
  · rfl
  split
  · simp
  split
  · simp
  · rfl

@[simp] theorem recordAll_batch (es : List Event) (s : State) : (s.recordAll es).jr.batch = s.jr.batch := by
  induction es generalizing s with
  | nil => rfl
  | cons e rest ih => rw [recordAll_cons, ih, record_eq, handOver_batch]

/-- A take changes no batch in flight (R76). -/
theorem take_batch (j : Journal) : j.take.batch = j.batch := represent_batch _

end Sys2Proof.Machine

/-! SUPPORT. The relations of R91 in the machine: every event that can fall due keeps them in a sound link engine; and the
statement on every step. -/

namespace Sys2Proof.Machine

/-! ### The relations in the machine -/

/-- The relations of R91, of the state as it stands. -/
def State.OutboundRelations (s : State) : Prop := s.ob.Sound s.link.state s.jr.batch

theorem flying_iff (ob : Outbound) (item : Item) :
    ob.flying = some item ↔ ∃ f, ob.inFlight = some f ∧ f.item = item := Option.map_eq_some_iff

theorem outboundRelations_iff (s : State) : s.OutboundRelations ↔ s.OutboundSound :=
  ⟨fun ⟨hj, ht, ho, hb, hc⟩ => ⟨hj, ht, fun i => (ho i).trans (flying_iff ..), hb.trans (flying_iff ..), hc⟩,
    fun ⟨hj, ht, ho, hb, hc⟩ => ⟨hj, ht, fun i => (ho i).trans (flying_iff ..).symm, hb.trans (flying_iff ..).symm, hc⟩⟩

section
variable {s t : State}

/-- The relations speak of the outbound service, of the link state and of the journal's batch alone. -/
theorem State.OutboundRelations.congr (h : s.OutboundRelations) (ho : t.ob = s.ob) (hl : t.link.state = s.link.state)
    (hb : t.jr.batch = s.jr.batch) : t.OutboundRelations := by
  unfold State.OutboundRelations at *
  rw [ho, hl, hb]
  exact h

theorem State.OutboundRelations.ite {p : Prop} [Decidable p] (h : s.OutboundRelations) (h' : t.OutboundRelations) :
    (if p then s else t).OutboundRelations := by split <;> assumption

/-! ### Records, keys and sleep -/

theorem State.OutboundRelations.recordAll (h : s.OutboundRelations) (es : List Event) :
    (s.recordAll es).OutboundRelations := h.congr (by simp) (by simp) (by simp)

theorem State.OutboundRelations.forcedRelease (h : s.OutboundRelations) : s.forcedRelease.OutboundRelations :=
  h.recordAll s.ks.forcedEvents

theorem State.OutboundRelations.requestWake (h : s.OutboundRelations) (c : WakeCause) (detail : Byte) :
    (s.requestWake c detail).OutboundRelations := by
  rw [requestWake_eq]
  exact h

theorem State.OutboundRelations.enterSleep (h : s.OutboundRelations) : s.enterSleep.OutboundRelations := by
  cases he : s.ks.en with
  | false => rw [enterSleep_of_disabled s he]; exact h
  | true =>
    rw [enterSleep_of_enabled s he]
    exact State.OutboundRelations.forcedRelease (s := { s with pr.state := .sleep }) h

theorem State.OutboundRelations.finishWake (h : s.OutboundRelations) : s.finishWake.OutboundRelations := by
  unfold State.finishWake
  exact State.OutboundRelations.recordAll
    (s := { s with pr := _, link.watchdog := 0, ks.clock := 0, ks.due := false }) h [_]

theorem State.OutboundRelations.completeScan (h : s.OutboundRelations) (keys : BitVec 48) :
    (s.completeScan keys).OutboundRelations := by
  unfold State.completeScan
  split
  case h_4 =>
    unfold State.wakeScan
    dsimp only
    split
    · exact State.OutboundRelations.requestWake (s := { s with ks.clock := 0, ks.due := false, pins.switches := keys }) h _ _
    · exact h
  case h_5 => exact h
  all_goals
    unfold State.processScan
    rcases s.ks.scan keys s.ks.clock with ⟨ks, es⟩
    exact h.recordAll es

/-! ### Link transitions (R41 to R48) -/

/-- R107: after return-to-source nothing is in flight, whatever the link state is to be. -/
theorem State.OutboundRelations.returned (h : s.OutboundRelations) (state : LinkState) :
    s.returnToSource.ob.Sound state s.returnToSource.jr.batch := by
  unfold State.returnToSource
  split
  · exact h.idle ‹_›
  · rename_i f hf
    have hfly := flying_of_some hf
    split <;> rename_i hi <;> rw [hi] at hfly
    · exact h.endMailbox hfly (giveBack_atRest _)
    · exact h.endBatch hfly

/-- R40: a turn reset comes with nothing in flight. -/
theorem State.OutboundRelations.returnedTurn (h : s.OutboundRelations) (state : LinkState) (turn : BitVec 3) :
    Outbound.Sound state s.returnToSource.jr.batch { s.returnToSource.ob with nextTurn := turn } :=
  (h.returned state).idle (returnToSource_inFlight s)

theorem State.OutboundRelations.join (h : s.OutboundRelations) : s.join.OutboundRelations := by
  unfold State.join
  split
  · exact h.returnedTurn ..
  · rename_i hs
    simp only [Bool.or_eq_true, beq_iff_eq, not_or] at hs
    exact h.idle (h.idle_of_state hs.1)

theorem State.OutboundRelations.serveRollcallBySerial (h : s.OutboundRelations) (body : List Byte) :
    (s.serveRollcallBySerial body).OutboundRelations := by
  unfold State.serveRollcallBySerial
  split
  · split
    · exact h.returned .listen
    · exact h.returnedTurn ..
  · exact h

theorem State.OutboundRelations.hush (h : s.OutboundRelations) (d : Half) : (s.hush d).OutboundRelations := by
  unfold State.hush
  split
  · exact h.returned .hushed
  all_goals exact h

theorem State.OutboundRelations.clash (h : s.OutboundRelations) : s.clash.OutboundRelations := h.returned .clashed

/-- R41: the link is enabled while it is OFF, with nothing in flight, and disabled after a return-to-source. -/
theorem State.OutboundRelations.writeLinkCtl (h : s.OutboundRelations) (he : s.link.en = s.linkOn) (v : Byte) :
    (s.writeLinkCtl v).OutboundRelations := by
  unfold State.writeLinkCtl
  dsimp only
  split
  · rename_i hon
    simp only [Bool.and_eq_true, Bool.not_eq_true', he, State.linkOn, bne_eq_false_iff_eq] at hon
    exact h.idle (h.idle_of_state (by simp [hon.2]))
  split
  · have h1 : State.OutboundRelations { s with
        link := { s.link with rate := v.extractLsb' 1 2, en := v.getLsbD 0, tx := .idle, rx := Receiver.awaiting } } := h
    exact h1.returnedTurn ..
  · exact h

/-! ### The tick -/

theorem State.OutboundRelations.tickWatchdog (h : s.OutboundRelations) : s.tickWatchdog.OutboundRelations := by
  unfold State.tickWatchdog
  split
  · exact h.returned .listen
  · exact .ite h h

/-- R45: in HUSHED nothing is in flight. -/
theorem State.OutboundRelations.tickQuiet (h : s.OutboundRelations) : s.tickQuiet.OutboundRelations := by
  unfold State.tickQuiet
  split
  · rename_i hq
    simp only [State.quietExpires, Bool.and_eq_true, beq_iff_eq] at hq
    exact h.idle (h.idle_of_state (by simp [hq.1.1]))
  · split
    · exact .ite h h
    all_goals exact h

theorem State.OutboundRelations.tickRefresh (h : s.OutboundRelations) : s.tickRefresh.OutboundRelations := by
  have h1 : State.OutboundRelations { s with ob.boxes := tabulate fun i => s.ob.boxes[i].tick } :=
    h.setBoxes fun i => by simpa using keeps_tick (h.cancel i)
  exact .ite (.ite h1 h1) h

theorem State.OutboundRelations.tickLamps (h : s.OutboundRelations) : s.tickLamps.OutboundRelations :=
  .ite (State.OutboundRelations.recordAll (s := { s with lm := s.lm.tick }) h _) h

theorem State.OutboundRelations.tickSense (h : s.OutboundRelations) (sns : BitVec 4) :
    (s.tickSense sns).OutboundRelations := by
  unfold State.tickSense
  split
  case h_4 =>
    split
    · exact h.requestWake _ _
    · exact h
  case h_5 => exact h
  all_goals exact State.OutboundRelations.recordAll (s := { s with st := s.st.sampleAll sns }) h _

theorem State.OutboundRelations.tick (h : s.OutboundRelations) (sns : BitVec 4) : (s.tick sns).OutboundRelations := by
  have h0 : s.tickTime.OutboundRelations := h
  have h1 : s.tickTime.tickWatchdog.tickQuiet.tickRefresh.tickLamps.tickScan.OutboundRelations :=
    h0.tickWatchdog.tickQuiet.tickRefresh.tickLamps
  exact h1.tickSense sns

/-! ### POLL (R100 to R106) -/

/-- The relations with the link JOINED: what the stages of a POLL keep. -/
def State.Polling (s : State) : Prop := s.ob.Sound .joined s.jr.batch

theorem State.Polling.acknowledge {f : InFlight} (h : s.Polling) (hf : s.ob.inFlight = some f) :
    (s.acknowledge f).Polling := by
  have hfly := flying_of_some hf
  unfold State.acknowledge
  split <;> rename_i hi <;> rw [hi] at hfly
  · exact h.endMailbox hfly (finish_atRest _)
  · exact h.endBatch hfly

theorem State.Polling.pollAcknowledge (h : s.Polling) (av : Bool) (tn : BitVec 3) : (s.pollAcknowledge av tn).Polling := by
  unfold State.pollAcknowledge
  split
  · exact h
  · split
    · exact h.acknowledge ‹_›
    · exact h

/-- R102: what is withdrawn is a mailbox. -/
theorem State.Polling.withdraw {f : InFlight} (h : s.Polling) (hf : s.ob.inFlight = some f)
    (hw : s.ob.withdrawing f = true) : (s.withdraw f).Polling := by
  have hfly := flying_of_some hf
  unfold State.withdraw
  split <;> rename_i hi <;> rw [hi] at hfly
  · exact h.endMailbox hfly (finish_atRest _)
  · simp [Outbound.withdrawing, hi] at hw

theorem State.Polling.dropItem {f : InFlight} (h : s.Polling) (hf : s.ob.inFlight = some f) : (s.dropItem f).Polling := by
  have hfly := flying_of_some hf
  unfold State.dropItem
  split <;> rename_i hi <;> rw [hi] at hfly
  · exact h.endMailbox hfly (drop_atRest _)
  · exact h.endBatch hfly

theorem State.Polling.pollUnacknowledged (h : s.Polling) : s.pollUnacknowledged.Polling := by
  unfold State.pollUnacknowledged
  split
  · exact h
  · split
    · exact h.withdraw ‹_› ‹_›
    split
    · exact h.resend ‹_› _
    · exact h.dropItem ‹_›

theorem State.Polling.pollSelect (h : s.Polling) : s.pollSelect.Polling := by
  unfold State.pollSelect
  split
  · exact h
  split
  · exact h
  unfold State.composeItem
  split
  · exact h.sendMailbox ‹_› rfl
  · exact h.sendBatch ‹_› _

theorem State.OutboundRelations.servePoll (h : s.OutboundRelations) (hj : s.joined = true) (av : Bool) (tn : BitVec 3) :
    (s.servePoll av tn).OutboundRelations := by
  have hs : s.link.state = .joined := (joined_iff s).1 hj
  have h0 : s.Polling := by
    unfold State.Polling
    rw [← hs]
    exact h
  have hpoll : (s.pollStages av tn).Polling :=
    State.Polling.pollSelect (State.Polling.pollUnacknowledged (h0.pollAcknowledge av tn))
  have h1 : (s.pollStages av tn).OutboundRelations := by
    unfold State.OutboundRelations
    rw [pollStages_link, hs]
    exact hpoll
  unfold State.servePoll State.replyPoll
  split <;> exact h1

/-! ### DELIVER and PEEK -/

theorem State.OutboundRelations.applyDelivery (h : s.OutboundRelations) (chan : Byte) (payload : List Byte) (v : Verdict)
    (stores broadcast : Bool) : (s.applyDelivery chan payload v stores broadcast).OutboundRelations := by
  rw [applyDelivery_eq]
  exact h

theorem State.OutboundRelations.serveDeliver (h : s.OutboundRelations) (tn : BitVec 3) (chan : Byte)
    (payload : List Byte) : (s.serveDeliver tn chan payload).OutboundRelations := by
  show (s.deliver tn chan payload).1.OutboundRelations
  unfold State.deliver
  dsimp only
  repeat' split
  case isFalse.isFalse.isFalse.isFalse => exact h.applyDelivery ..
  all_goals exact h

theorem State.OutboundRelations.deliverAll (h : s.OutboundRelations) (chan : Byte) (payload : List Byte) :
    (s.deliverAll chan payload).OutboundRelations := by
  have h1 : State.OutboundRelations (State.raise1 iqDropFlag { s with ib.drops := counted s.ib.drops }) := h
  exact .ite h (.ite (h1.applyDelivery ..) (h.applyDelivery ..))

theorem State.OutboundRelations.servePeek (h : s.OutboundRelations) (addr count : Byte) :
    (s.servePeek addr count).OutboundRelations := by
  have h1 : (s.captureSpan addr count.toNat).OutboundRelations := by rw [captureSpan_eq]; exact h
  exact .ite h h1

/-! ### Writes of registers -/

theorem State.OutboundRelations.writeScanCtl (h : s.OutboundRelations) (v : Byte) :
    (s.writeScanCtl v).OutboundRelations :=
  have h1 : State.OutboundRelations { s with ks.en := v.getLsbD 0, ks.sleepWake := v.getLsbD 1 } := h
  .ite h (.ite h1.forcedRelease h1)

theorem State.OutboundRelations.updBox (h : s.OutboundRelations) (m : Master) {g : Mailbox → Mailbox}
    (hk : (s.selBox m).Keeps (g (s.selBox m))) : (s.updBox m g).OutboundRelations := Outbound.Sound.updBox h hk

/-- R96: LOAD and ARM act on an EMPTY mailbox. -/
theorem State.OutboundRelations.writeMbCmd (h : s.OutboundRelations) (m : Master) {v : Byte}
    (he : v = 1#8 ∨ v = 2#8 → (s.selBox m).state = .empty) : (s.writeMbCmd m v).OutboundRelations := by
  have hc := h.cancel (s.copies m).mbsel
  unfold State.writeMbCmd
  split
  · exact h.updBox m (keeps_load hc _)
  split
  · exact h.updBox m (keeps_arm hc (he (.inr ‹_›)))
  · exact h.updBox m (keeps_cancel hc)

/-- After every restart nothing is in flight, and every mailbox is EMPTY (R111). -/
theorem softRestart_outboundRelations (s : State) : s.softRestart.OutboundRelations :=
  Outbound.sound_of_idle rfl rfl fun i => by
    have hi : s.softRestart.ob.boxes[i] = s.ob.boxes[i].restart := by simp [State.softRestart, Outbound.restart]
    rw [hi]
    exact ⟨nofun, rfl⟩

/-- A write of any register by either master; a mailbox command as the access check lets it pass. -/
theorem State.OutboundRelations.applyWrite (h : s.OutboundRelations) (hen : s.link.en = s.linkOn) (m : Master) {r : Reg}
    {v : Byte} (he : r = .mbCmd → v = 1#8 ∨ v = 2#8 → (s.selBox m).state = .empty) :
    (s.applyWrite m r v).OutboundRelations := by
  cases r
  case restart =>
    cases m with
    | host => exact softRestart_outboundRelations s
    | head => exact h
  case linkCtl => exact h.writeLinkCtl hen v
  case scanCtl => exact h.writeScanCtl v
  case jtake => exact h.congr rfl rfl (take_batch _)
  case mbCmd => exact h.writeMbCmd m (he rfl)
  case mbDrops | mbStales => exact h.updBox m ⟨.rfl, h.cancel _⟩
  case resend | jrank | patience => exact ⟨h.joined, h.turn, h.offered, h.batch, h.cancel⟩
  case localTime i => simp only [State.applyWrite, State.writeLocalTime]; split <;> cases m <;> exact h
  case iflags0 => simp only [State.applyWrite, State.clearFlags0]; split <;> exact h
  all_goals cases m <;> exact h

/-! ### POKE: each byte judged against the state before it (R61) -/

theorem not_busy_of_check {m : Master} {r : Reg} {v : Byte} (h : s.check m r v = none) : s.busy m r v = false := by
  by_contra hb
  rw [Bool.not_eq_false] at hb
  revert h
  unfold State.check
  rw [hb]
  repeat' split
  all_goals simp_all

/-- R96: a mailbox command that passes the access check finds an EMPTY mailbox, or is a CANCEL. -/
theorem empty_of_check {m : Master} {v : Byte} (h : s.check m .mbCmd v = none) (hv : v = 1#8 ∨ v = 2#8) :
    (s.selBox m).state = .empty := by
  simpa [State.busy, hv] using not_busy_of_check h

/-- What a byte of a POKE is judged against still holds of the mailboxes when it takes effect: the head selects the same
mailbox, and one that was EMPTY is still EMPTY. -/
structure State.Foresees (judge s : State) : Prop where
  mbsel : judge.head.mbsel = s.head.mbsel
  empty : ∀ i : Fin 6, judge.ob.boxes[i].state = .empty → s.ob.boxes[i].state = .empty

theorem State.Foresees.refl (s : State) : s.Foresees s := ⟨rfl, fun _ => id⟩

theorem State.Foresees.trans {judge : State} (h : judge.Foresees s) (h' : s.Foresees t) : judge.Foresees t :=
  ⟨h.mbsel.trans h'.mbsel, fun i he => h'.empty i (h.empty i he)⟩

/-- A change of a mailbox that an EMPTY one does not notice. -/
theorem foresees_updBox (i : Fin 6) {g : Mailbox → Mailbox}
    (hg : s.ob.boxes[i].state = .empty → (g s.ob.boxes[i]).state = .empty) :
    s.Foresees { s with ob := s.ob.updBox i g } := by
  refine ⟨rfl, fun j he => ?_⟩
  rw [updBox_box]
  split
  · rename_i hij
    subst hij
    exact hg he
  · exact he

/-- R107: return-to-source hands back an OFFERED mailbox. -/
theorem State.OutboundRelations.foresees_returnToSource (h : s.OutboundRelations) : s.Foresees s.returnToSource := by
  unfold State.returnToSource
  split
  · exact .refl s
  · rename_i f hf
    split
    · rename_i i hi
      have ho : s.ob.boxes[i].state = .offered := (h.offered i).2 (hi ▸ flying_of_some hf)
      obtain ⟨hm, he⟩ := foresees_updBox (s := s) i (g := Mailbox.giveBack) fun he => absurd (ho.symm.trans he) nofun
      exact ⟨hm, he⟩
    · exact ⟨rfl, fun _ => id⟩

theorem State.OutboundRelations.foresees_writeLinkCtl (h : s.OutboundRelations) (v : Byte) :
    s.Foresees (s.writeLinkCtl v) := by
  unfold State.writeLinkCtl
  dsimp only
  split
  · exact ⟨rfl, fun _ => id⟩
  split
  · have h1 : State.OutboundRelations { s with
        link := { s.link with rate := v.extractLsb' 1 2, en := v.getLsbD 0, tx := .idle, rx := Receiver.awaiting } } := h
    obtain ⟨hm, he⟩ := h1.foresees_returnToSource
    exact ⟨hm, he⟩
  · exact ⟨rfl, fun _ => id⟩

/-- No write by the head but of MBSEL selects another mailbox, and none but of MBCMD fills an EMPTY one. -/
theorem State.OutboundRelations.foresees_applyWrite (h : s.OutboundRelations) {r : Reg} (v : Byte) (hs : r ≠ .mbsel)
    (hc : r ≠ .mbCmd) : s.Foresees (s.applyWrite .head r v) := by
  cases r
  case mbsel => exact absurd rfl hs
  case mbCmd => exact absurd rfl hc
  case linkCtl => exact h.foresees_writeLinkCtl v
  case scanCtl =>
    simp only [State.applyWrite, State.writeScanCtl, forcedRelease_eq]
    (repeat' split) <;> exact ⟨rfl, fun _ => id⟩
  case mbDrops | mbStales => exact foresees_updBox _ id
  case localTime i => simp only [State.applyWrite, State.writeLocalTime]; split <;> exact ⟨rfl, fun _ => id⟩
  case iflags0 => simp only [State.applyWrite, State.clearFlags0]; split <;> exact ⟨rfl, fun _ => id⟩
  all_goals exact ⟨rfl, fun _ => id⟩

/-- R61: a selector byte is judged as it takes effect. -/
theorem State.OutboundRelations.foresees_preselect (h : s.OutboundRelations) {judge : State} (hj : judge.Foresees s)
    {r : Reg} (v : Byte) (hc : r ≠ .mbCmd) : (judge.preselect r v).Foresees (s.applyWrite .head r v) := by
  by_cases hs : r = .mbsel
  · subst hs
    exact ⟨rfl, hj.empty⟩
  · refine State.Foresees.trans ?_ (h.foresees_applyWrite v hs hc)
    cases r
    case mbsel => exact absurd rfl hs
    all_goals exact ⟨hj.mbsel, hj.empty⟩

theorem State.Foresees.selBox_empty {judge : State} (h : judge.Foresees s) (he : (judge.selBox .head).state = .empty) :
    (s.selBox .head).state = .empty := by
  have hi := h.empty judge.head.mbsel he
  rw [h.mbsel] at hi
  exact hi

/-- An address names no register, or one by the row of Table 1-1 that it lies in. -/
theorem regAt_cases (addr : Byte) : regAt addr = .unassigned ∨
    ∃ row ∈ registerMap, ∃ i < row.count, addr.toNat = row.first + i ∧ regAt addr = row.reg i := by
  unfold regAt
  split
  · rename_i row hrow
    have hin := List.find?_some hrow
    simp only [Bool.and_eq_true, decide_eq_true_eq] at hin
    exact .inr ⟨row, List.mem_of_find?_eq_some hrow, addr.toNat - row.first, by omega, by omega, rfl⟩
  · exact .inl rfl

/-- MBCMD has one address, so that a POKE writes it at most once. -/
theorem addr_of_mbCmd {addr : Byte} (h : regAt addr = .mbCmd) : addr.toNat = 0x6A := by
  have hrows : ∀ row ∈ registerMap, ∀ i < row.count, row.reg i = .mbCmd → row.first + i = 0x6A := by decide
  rcases regAt_cases addr with hr | ⟨row, hrow, i, hi, ha, hr⟩
  · simp [hr] at h
  · rw [ha]
    exact hrows row hrow i hi (hr.symm.trans h)

/-- R62: the bytes of a POKE that was not refused take effect one after another; what the POKE was judged against holds until
MBCMD is written. -/
theorem State.OutboundRelations.writeSpan (h : s.OutboundRelations) (hl : s.LinkSound) {judge : State} {addr : Byte}
    {data : List Byte} (hspan : addr.toNat + data.length ≤ 256)
    (hf : addr.toNat ≤ 0x6A → 0x6A < addr.toNat + data.length → judge.Foresees s)
    (hj : judge.firstRefusal addr data = none) : (s.writeSpan addr data).OutboundRelations := by
  induction data generalizing addr judge s with
  | nil => exact h
  | cons v rest ih =>
    rw [State.firstRefusal] at hj
    cases hcheck : judge.check .head (regAt addr) v with
    | some c => simp [hcheck] at hj
    | none =>
      rw [hcheck] at hj
      rw [List.length_cons] at hspan hf
      have hnext : (addr + 1).toNat = (addr.toNat + 1) % 256 := by simp
      have hr : regAt addr = .mbCmd → addr.toNat = 0x6A := addr_of_mbCmd
      have hlink := hl.applyWrite .head (inRange_of_check hcheck)
      have hwrite : (s.applyWrite .head (regAt addr) v).OutboundRelations :=
        h.applyWrite hl.enabled .head fun hm hv =>
          (hf (by grind) (by grind)).selBox_empty (empty_of_check (hm ▸ hcheck) hv)
      exact ih hwrite hlink (by omega)
        (fun hlow hhigh => h.foresees_preselect (hf (by omega) (by omega)) v fun hm => by grind) hj

theorem State.OutboundRelations.servePoke (h : s.OutboundRelations) (hl : s.LinkSound) (addr : Byte)
    (data : List Byte) : (s.servePoke addr data).OutboundRelations := by
  unfold State.servePoke
  split
  · exact h
  rename_i hspan
  split
  · exact h
  · have hspan : addr.toNat + data.length ≤ 256 := by
      simp only [pastEnd, decide_eq_true_eq] at hspan
      omega
    have h1 := h.writeSpan hl hspan (fun _ _ => .refl s) ‹_›
    exact .ite h1 h1

/-! ### Every frame -/

theorem State.OutboundRelations.dispatch (h : s.OutboundRelations) (hl : s.LinkSound) (f : Frame) :
    (s.dispatch f).OutboundRelations := by
  unfold State.dispatch
  cases f.kind with
  | rollcall => exact .ite (.ite h.join h) (h.serveRollcallBySerial f.body)
  | poll =>
    dsimp only
    split
    · exact h.servePoll ‹_› ..
    · exact h
  | deliver => exact .ite (.ite (h.deliverAll ..) h) (.ite (h.serveDeliver ..) h)
  | peek => exact .ite (h.servePeek ..) h
  | poke => exact .ite (h.servePoke hl ..) h
  | hush => exact h.hush _
  | beacon => exact .ite h h
  | hello | answer | nothing | receipt | regval => exact h

theorem State.OutboundRelations.processFrame (h : s.OutboundRelations) (hl : s.LinkSound) (c : FrameClass) :
    (s.processFrame c).OutboundRelations := by
  cases c with
  | valid f =>
    exact .ite (State.OutboundRelations.dispatch (s := s.hearHead) h (hl.congr rfl) f) (.ite h.clash h)
  | badFormat | badCrc | unknownKind | misdirected => exact h

theorem State.OutboundRelations.completeFrame (h : s.OutboundRelations) (hl : s.LinkSound) (bytes : List RxByte) :
    (s.completeFrame bytes).OutboundRelations := by
  have h1 : State.OutboundRelations { s with link.rx := Receiver.completed } := h
  have hl1 : State.LinkSound { s with link.rx := Receiver.completed } := hl.setReceiver nofun
  unfold State.completeFrame
  dsimp only
  split
  · exact .ite (h1.requestWake .link 0) h1
  · exact h1
  all_goals exact h1.processFrame hl1 _

/-! ### SPI bytes -/

theorem State.OutboundRelations.loadOut (h : s.OutboundRelations) : s.loadOut.OutboundRelations := by
  rw [loadOut_eq]
  exact h

theorem State.OutboundRelations.advance (h : s.OutboundRelations) : s.advance.OutboundRelations := .ite h h

theorem State.OutboundRelations.fetch (h : s.OutboundRelations) : s.fetch.OutboundRelations := by
  rw [fetch_eq]
  exact h

theorem State.OutboundRelations.commandByte (h : s.OutboundRelations) (b : Byte) :
    (s.commandByte b).OutboundRelations := by
  have h1 (c : HostCommand) (p : Phase) : (s.setCommand c p).OutboundRelations := h
  rw [commandByte_eq]
  exact State.OutboundRelations.loadOut (.ite ((h1 _ _).requestWake .host 0) (h1 _ _))

theorem State.OutboundRelations.readByte (h : s.OutboundRelations) : s.readByte.OutboundRelations := by
  have h1 : s.settleCapture.OutboundRelations := by rw [settleCapture_eq]; exact h
  exact .ite h1.advance.fetch h1.advance.loadOut

theorem State.OutboundRelations.hostWriteByte (h : s.OutboundRelations) (hl : s.LinkSound) (v : Byte) :
    (s.hostWriteByte v).OutboundRelations := by
  unfold State.hostWriteByte
  dsimp only
  split
  · refine State.OutboundRelations.loadOut (State.OutboundRelations.advance ?_)
    rw [captureRefusal_eq]
    exact h
  · rename_i hcheck
    have h1 := h.applyWrite hl.enabled .host fun (hm : regAt s.hp.pointer = .mbCmd) => empty_of_check (hm ▸ hcheck)
    exact .ite h1 h1.advance.loadOut

/-! ### Every event and every command -/

theorem State.OutboundRelations.startReply (h : s.OutboundRelations) : s.startReply.OutboundRelations := by
  unfold State.startReply
  split <;> exact h

/-- Every event keeps the relations of R91 in a sound link engine. -/
theorem IsEvent.outboundRelations {due : State → Bool} {f : State → State} (e : IsEvent due f) (hl : s.LinkSound)
    (h : s.OutboundRelations) : (f s).OutboundRelations := by
  have hcancel : s.cancelPending.OutboundRelations := .ite h h
  cases e with
  | restart => exact softRestart_outboundRelations s
  | wakeEnd => exact h.finishWake
  | scan _ keys => exact h.completeScan keys
  | tick _ sns => exact h.tick sns
  | sleepEntry => exact h.enterSleep
  | frame bytes => exact h.completeFrame hl (bytes s)
  | frameStart | discardedByte => exact hcancel
  | replyStart => exact h.startReply
  | commandByte b => exact h.commandByte b
  | addressByte b => exact State.OutboundRelations.loadOut h
  | turnaround => exact State.OutboundRelations.fetch h
  | readData => exact h.readByte
  | statusStream | ignoredByte => exact h.loadOut
  | hostWrite _ v => exact h.hostWriteByte hl v
  | hunting | replyEnd | replyAbort | replyCancel | csnRise | csnFall | csnWhileHeld => exact h

theorem State.Reaches.outboundRelations (hr : s.Reaches t) (hl : s.LinkSound) (h : s.OutboundRelations) :
    t.OutboundRelations := by
  induction hr with
  | refl => exact h
  | tail hr hstep ih =>
    obtain ⟨due, f, e, -, rfl⟩ := hstep
    exact e.outboundRelations (State.Reaches.linkSound hr hl) ih

theorem powerOnReset_outboundRelations (p : Straps) (s : State) : (s.powerOnReset p).OutboundRelations :=
  Outbound.sound_of_idle rfl rfl fun i => by
    have hi : (s.powerOnReset p).ob.boxes[i] = Mailbox.powerOn := by simp [State.powerOnReset, Outbound.powerOn]
    rw [hi]
    exact ⟨nofun, rfl⟩

/-- Every command keeps the relations of R91 in a sound link engine. -/
theorem exec_outboundRelations {c : Instr} (hl : s.LinkSound) (h : s.OutboundRelations) (he : exec c s = .next t) :
    t.OutboundRelations := by
  cases hr : ofReset c with
  | false =>
    obtain ⟨u, hu, hreach⟩ := exec_reaches c s hr
    obtain rfl : u = t := by simpa [hu] using he
    exact hreach.outboundRelations hl h
  | true =>
    match c, hr with
    | .powerOnReset p, _ | .pinReset p, _ =>
      cases he
      exact .ite h (powerOnReset_outboundRelations p _)
    | .resetHeldLow, _ | .supplyBelowRange, _ =>
      cases he
      exact h

end

end Sys2Proof.Machine

namespace Sys2Proof.Proofs

open Sys2Proof.Machine

/-- Settles O56: each event that a step can be made of keeps the relations of R91, where the link engine is sound, as it is after
every event (O55). -/
theorem stepKeepsOutbound : Obligations.StepKeepsOutbound := by
  intro s t hl h hstep
  obtain ⟨-, ht⟩ := step_keeps (P := fun s => s.LinkSound ∧ s.OutboundRelations) (fun _ _ ⟨hl, ho⟩ => ⟨hl.congr rfl, ho⟩)
    (fun _ _ _ ⟨hl, ho⟩ he => ⟨exec_linkSound hl he, exec_outboundRelations hl ho he⟩)
    ⟨hl, (outboundRelations_iff s).2 h⟩ hstep
  exact (outboundRelations_iff t).1 ht

end Sys2Proof.Proofs

/-! SUPPORT. A POLL that does not acknowledge the item in flight, and one that chooses the next item; and the statements on them. -/

namespace Sys2Proof.Machine

section
variable {s : State} {f : InFlight} {av : Bool} {tn : BitVec 3}

/-! ### Stage 2: withdrawn, resent or dropped (R101 to R103) -/

/-- A POLL with AV 0 or with another turn acknowledges nothing. -/
theorem pollAcknowledge_of_other (hf : s.ob.inFlight = some f) (h : av = false ∨ tn ≠ f.turn) :
    s.pollAcknowledge av tn = s := by
  have hno : (av && tn == f.turn) = false := by rcases h with h | h <;> simp [h]
  simp [State.pollAcknowledge, hf, hno]

theorem pollUnacknowledged_of_withdrawing (hf : s.ob.inFlight = some f) (hw : s.ob.withdrawing f = true) :
    s.pollUnacknowledged = s.withdraw f := by simp [State.pollUnacknowledged, hf, hw]

/-- R101: RESEND 0 puts no limit to the resends. -/
theorem pollUnacknowledged_of_resend (hf : s.ob.inFlight = some f) (hw : s.ob.withdrawing f = false)
    (hr : s.ob.resend = 0#8 ∨ f.resends < s.ob.resend.toNat) : s.pollUnacknowledged = s.resendItem f := by
  simp [State.pollUnacknowledged, hf, hw, hr]

theorem pollUnacknowledged_of_drop (hf : s.ob.inFlight = some f) (hw : s.ob.withdrawing f = false)
    (h0 : s.ob.resend ≠ 0#8) (hr : s.ob.resend.toNat ≤ f.resends) : s.pollUnacknowledged = s.dropItem f := by
  simp [State.pollUnacknowledged, hf, hw, h0, hr]

theorem withdrawing_of_mailbox {i : Fin 6} {ob : Outbound} (hi : f.item = .mailbox i) :
    ob.withdrawing f = ob.boxes[i].cancelPending := by rw [Outbound.withdrawing, hi]

/-- An item without a pending cancel, the batch included, is not withdrawn (R102). -/
theorem not_withdrawing {ob : Outbound} (h : ∀ i : Fin 6, f.item = .mailbox i → ob.boxes[i].cancelPending = false) :
    ob.withdrawing f = false := by
  cases hi : f.item with
  | mailbox i => rw [withdrawing_of_mailbox hi, h i hi]
  | batch => rw [Outbound.withdrawing, hi]

theorem withdraw_of_mailbox {i : Fin 6} (hi : f.item = .mailbox i) : s.withdraw f = { s with
    ob := { s.ob.updBox i Mailbox.finish with inFlight := none, nextTurn := f.turn + 1 } } := by
  rw [State.withdraw, hi]
  rfl

theorem dropItem_of_mailbox {i : Fin 6} (hi : f.item = .mailbox i) : s.dropItem f = { s with
    ob := { s.ob.updBox i (fun b => { b.finish with drops := counted b.drops }) with
      inFlight := none, nextTurn := f.turn + 1 }
    ia.flags0 := s.ia.flags0 ||| mbDropFlag } := by
  rw [State.dropItem, hi]
  rfl

theorem dropItem_of_batch (hi : f.item = .batch) : s.dropItem f = { s with
    ob := { s.ob with inFlight := none, nextTurn := f.turn + 1 }, jr := s.jr.dropBatch } := by
  rw [State.dropItem, hi]
  rfl

/-! ### Stage 3: the next item (R104, R105) -/

/-- Nothing is chosen while an item is in flight. -/
theorem pollSelect_of_some (hf : s.ob.inFlight = some f) : s.pollSelect = s := by simp [State.pollSelect, hf]

/-- With nothing in flight a POLL is its stage 3, whatever it acknowledges. -/
theorem pollStages_of_none (hf : s.ob.inFlight = none) : s.pollStages av tn = s.pollSelect := by
  have hack : s.pollAcknowledge av tn = s := by simp [State.pollAcknowledge, hf]
  rw [State.pollStages, hack, pollUnacknowledged_of_none hf]

theorem pollSelect_of_item (hf : s.ob.inFlight = none) {item : Item} (hi : s.selectItem = some item) :
    s.pollSelect = s.composeItem item := by simp [State.pollSelect, hf, hi]

theorem pollSelect_of_no_item (hf : s.ob.inFlight = none) (hi : s.selectItem = none) : s.pollSelect = s := by
  simp [State.pollSelect, hf, hi]

theorem eligible_iff (j : Journal) : j.eligible = true ↔ ∃ r ∈ j.list, r.wantRemote = true ∧ r.pinned = false := by
  simp [Journal.eligible]

/-- The journal has been passed over as often as PATIENCE allows, and waits (R104). -/
def State.patient (s : State) : Prop :=
  s.ob.patience ≠ 0#8 ∧ s.ob.patience.toNat ≤ s.ob.passed ∧ s.jr.eligible = true

/-- R104: the lowest READY mailbox whose rank is before the journal's. -/
abbrev Outbound.urgent (ob : Outbound) : Option (Fin 6) := ob.firstReady fun i => decide (i.val < ob.jrank.toNat)

/-- R104: the lowest READY mailbox whose rank is after the journal's. -/
abbrev Outbound.ordinary (ob : Outbound) : Option (Fin 6) := ob.firstReady fun i => decide (ob.jrank.toNat ≤ i.val)

theorem selectItem_of_patient (h : s.patient) : s.selectItem = some .batch := by
  obtain ⟨h0, hp, he⟩ := h
  simp [State.selectItem, h0, hp, he]

/-- R104: without patience the ranks decide. -/
theorem selectItem_of_not_patient (h : ¬s.patient) : s.selectItem =
    match s.ob.urgent with
    | some i => some (.mailbox i)
    | none => if s.jr.eligible then some .batch else s.ob.ordinary.map .mailbox := by
  have hp : (s.ob.patience != 0#8 && decide (s.ob.patience.toNat ≤ s.ob.passed) && s.jr.eligible) = false := by
    simpa [State.patient, and_assoc] using h
  rw [State.selectItem, hp]
  rfl

theorem urgent_eq_none {ob : Outbound} (h : ∀ j : Fin 6, j.val < ob.jrank.toNat → ob.boxes[j].state ≠ .ready) :
    ob.urgent = none := (firstReady_none ..).2 fun j hj => h j (of_decide_eq_true hj.1) hj.2

/-- R104: the journal comes by patience, or by rank where no mailbox before it is READY. -/
theorem selectItem_of_journal (h : s.patient ∨
    (s.jr.eligible = true ∧ ∀ j : Fin 6, j.val < s.ob.jrank.toNat → s.ob.boxes[j].state ≠ .ready)) :
    s.selectItem = some .batch := by
  by_cases hp : s.patient
  · exact selectItem_of_patient hp
  · obtain ⟨he, hready⟩ := h.resolve_left hp
    rw [selectItem_of_not_patient hp, urgent_eq_none hready]
    exact if_pos he

/-- R104: without patience the lowest READY mailbox comes, if its rank is before the journal's or the journal is not eligible. -/
theorem selectItem_of_mailbox {i : Fin 6} (hp : ¬s.patient) (hi : s.ob.boxes[i].state = .ready)
    (hlow : ∀ j : Fin 6, j < i → s.ob.boxes[j].state ≠ .ready) (hr : i.val < s.ob.jrank.toNat ∨ s.jr.eligible = false) :
    s.selectItem = some (.mailbox i) := by
  have hfirst (p : Fin 6 → Bool) (h : p i = true) : s.ob.firstReady p = some i :=
    (firstReady_some ..).2 ⟨h, hi, fun j hj hready => hlow j hj hready.2⟩
  rw [selectItem_of_not_patient hp]
  by_cases hrank : i.val < s.ob.jrank.toNat
  · rw [Outbound.urgent, hfirst _ (decide_eq_true hrank)]
  · have hnone : s.ob.urgent = none := urgent_eq_none fun j hj => hlow j (Fin.lt_def.2 (by omega))
    rw [hnone, Outbound.ordinary, hfirst _ (decide_eq_true (by omega))]
    simp [hr.resolve_left hrank]

/-- R104: with neither the journal nor a mailbox to send there is no item. -/
theorem selectItem_eq_none (he : s.jr.eligible = false) (hready : ∀ j : Fin 6, s.ob.boxes[j].state ≠ .ready) :
    s.selectItem = none := by
  have hp : ¬s.patient := fun ⟨_, _, hj⟩ => by simp [he] at hj
  have hnone (p : Fin 6 → Bool) : s.ob.firstReady p = none := (firstReady_none ..).2 fun j hj => hready j hj.2
  rw [selectItem_of_not_patient hp, Outbound.urgent, hnone, Outbound.ordinary, hnone]
  simp [he]

end

end Sys2Proof.Machine

namespace Sys2Proof.Proofs

open Sys2Proof.Machine

/-- Settles O29: stage 1 leaves the item in flight, and stage 2 withdraws, resends or drops it; only a resent item keeps the POLL
from stage 3. -/
theorem pollUnacknowledged : Obligations.PollUnacknowledged := by
  intro av tn f s hs ha hd hj hf hother
  have hpoll : exec (.poll av tn) s = .next (State.replyPoll s.heard.pollUnacknowledged.pollSelect) := by
    rw [poll_of_ready hs ha hd hj, State.pollStages, pollAcknowledge_of_other (s := s.heard) hf hother]
  refine ⟨fun i hi hc => ?_, fun hkept => ?_⟩
  · rw [hpoll, pollUnacknowledged_of_withdrawing (s := s.heard) hf ((withdrawing_of_mailbox hi).trans hc),
      withdraw_of_mailbox hi]
    rfl
  have hw : s.heard.ob.withdrawing f = false := not_withdrawing hkept
  refine ⟨fun hr => ?_, fun h0 hr => ?_⟩
  · rw [hpoll, pollUnacknowledged_of_resend (s := s.heard) hf hw hr, pollSelect_of_some rfl]
    rfl
  have hdrop : s.heard.pollUnacknowledged = s.heard.dropItem f := pollUnacknowledged_of_drop hf hw h0 hr
  refine ⟨fun i hi => ?_, fun hi => ?_⟩
  · rw [hpoll, hdrop, dropItem_of_mailbox hi]
    rfl
  · rw [hpoll, hdrop, dropItem_of_batch hi]
    rfl

/-- Settles O30: the POLL is its stage 3, which chooses as `selectItem` does; and the batch is the first JBATCH records that the
head wants. -/
theorem pollSelects : Obligations.PollSelects := by
  intro av tn s hs ha hd hj hf eligible patient pinned
  have hpoll : exec (.poll av tn) s = .next (State.replyPoll s.heard.pollSelect) := by
    rw [poll_of_ready hs ha hd hj, pollStages_of_none (s := s.heard) hf]
  have hel : s.heard.jr.eligible = true ↔ eligible := eligible_iff s.jr
  have hnel (h : ¬eligible) : s.heard.jr.eligible = false := by simpa using fun he => h (hel.1 he)
  have hpat : s.heard.patient ↔ patient := and_congr_right' (and_congr_right' hel)
  refine ⟨fun h => ?_, fun i hp hi hlow hr => ?_, fun he hready => ?_, pinFirst_filter _ _⟩
  · have hitem : s.heard.selectItem = some .batch := selectItem_of_journal (h.imp hpat.2 (And.imp_left hel.2))
    rw [hpoll, pollSelect_of_item (s := s.heard) hf hitem]
    rfl
  · have hitem : s.heard.selectItem = some (.mailbox i) :=
      selectItem_of_mailbox (fun h => hp (hpat.1 h)) hi hlow (hr.imp_right hnel)
    refine ⟨if s.heard.jr.eligible then min 15 (s.ob.passed + 1) else s.ob.passed, fun he => if_pos (hel.2 he),
      fun he => if_neg (fun h => he (hel.1 h)), ?_⟩
    rw [hpoll, pollSelect_of_item (s := s.heard) hf hitem]
    rfl
  · rw [hpoll, pollSelect_of_no_item (s := s.heard) hf (selectItem_eq_none (hnel he) hready)]

end Sys2Proof.Proofs

/-! SUPPORT. A mailbox whose refresh elapses, inside its tick; and the statement on it. -/

namespace Sys2Proof.Machine

section
variable {b : Mailbox}

theorem elapses_of_due (hr : b.running = true) (hl : b.remaining ≤ 1) : b.elapses = true := by
  simp [Mailbox.elapses, hr, hl]

theorem tick_of_elapses (h : b.elapses = true) : b.tick = b.elapse := if_pos h

end

/-- The link timers of a tick leave the outbound service alone unless the watchdog expires (R48). -/
theorem tickFront_ob {s : State} (ha : s.awake = true) (hw : s.watchdogExpires = false) : (tickFront s).ob = s.ob := by
  obtain ⟨-, -, -, -, -, -, -, -, hob⟩ := tickFront_facts s ha
  rw [hob, tickBase_of_running hw]

/-- Then a tick treats each mailbox by itself (R97). -/
theorem tick_ob (sns : BitVec 4) {s : State} (ha : s.awake = true) (hw : s.watchdogExpires = false) :
    (s.tick sns).ob = { s.ob with boxes := tabulate fun i => s.ob.boxes[i].tick } := by
  rw [tick_awake sns s ha, ← tickFront_ob ha hw]

/-- R99: a stale mailbox sets MBSTALE. -/
theorem tick_mbStale (sns : BitVec 4) {s : State} (ha : s.awake = true) (hw : s.watchdogExpires = false) {i : Fin 6}
    (hi : s.ob.boxes[i].stale = true) : (s.tick sns).ia.flags0 &&& mbStaleFlag = mbStaleFlag := by
  have hstale : ∃ i : Fin 6, (tickFront s).ob.boxes[i].stale = true := ⟨i, by rw [tickFront_ob ha hw]; exact hi⟩
  rw [tick_awake sns s ha]
  dsimp only
  rw [if_pos hstale]
  ext
  simp +contextual

end Sys2Proof.Machine

namespace Sys2Proof.Proofs

open Sys2Proof.Machine

/-- Settles O9: the tick treats the mailbox by itself, and its elapse is R99's table. -/
theorem refreshElapse : Obligations.RefreshElapse := by
  intro i sns s h ha hw hr hl
  have hel := elapses_of_due hr hl
  have hdue : s.refreshElapses i = true := by simpa [State.refreshElapses, ha] using hel
  have hob := tick_ob sns ha hw
  have hbox : (s.tick sns).ob.boxes[i] = s.ob.boxes[i].elapse := by
    rw [hob, ← tick_of_elapses hel]
    exact tabulate_getElem _ _ _
  refine ⟨s.tick sns, congrArg _ (Ready.onEvent_of_due h hdue), ?_⟩
  rw [hbox, elapse_eq]
  refine ⟨fun he => ⟨if_pos he, if_pos he⟩, fun he => ⟨if_neg he, if_neg he, ?_⟩, fun hp => ⟨?_, if_neg hp⟩,
    fun hp => if_pos hp, rfl, rfl, rfl, by rw [hob], by rw [hob]⟩
  · exact tick_mbStale sns ha hw (i := i) (by rw [Mailbox.stale, hel]; simpa using he)
  · exact (if_neg hp).trans hr

end Sys2Proof.Proofs

/-! SUPPORT. The mailbox commands, case by case of the mailbox's state, and the mailbox staging; and the statement on them. -/

namespace Sys2Proof.Machine

/-! ### The commands on one mailbox (R96) -/

section
variable {b : Mailbox}

theorem Mailbox.armed_of_oneShot (h : b.mail.period = 0#16) : b.arm = { b with state := .ready, running := false } := if_pos h

theorem Mailbox.armed_of_periodic (h : b.mail.period ≠ 0#16) :
    b.arm = { b with state := .ready, running := true, remaining := b.mail.period.toNat * 10 } := if_neg h

theorem Mailbox.cancel_empty (h : b.state = .empty) : b.cancel = { b with running := false } := by rw [Mailbox.cancel, h]

theorem Mailbox.cancel_ready (h : b.state = .ready) : b.cancel = { b with state := .empty, running := false } := by
  rw [Mailbox.cancel, h]

theorem Mailbox.cancel_offered (h : b.state = .offered) : b.cancel = { b with cancelPending := true, running := false } := by
  rw [Mailbox.cancel, h]

end

/-! ### Writes of MBCMD and of the staging -/

section
variable {s : State} {m : Master} {addr v : Byte}

/-- R96: LOAD and ARM are refused BUSY unless the mailbox is EMPTY. -/
theorem mbCmd_busy (hv : v = 1#8 ∨ v = 2#8) : s.busy m .mbCmd v = ((s.selBox m).state != .empty) := by
  rcases hv with rfl | rfl <;> rfl

theorem writeBy_mbCmd_of_busy (hs : s.writeReady m 0x6A#8) (ho : s.owns m .outbox) (hv : v = 1#8 ∨ v = 2#8)
    (he : (s.selBox m).state ≠ .empty) : writeBy m 0x6A#8 v s = s.refusedWrite m 0x6A#8 .busy :=
  writeBy_busy hs (r := .mbCmd) rfl rfl ho (by rw [mbCmd_busy hv]; simpa using he)

/-- What the writer selects is not touched by the frame that carries its write. -/
theorem opened_updBox (m : Master) (g : Mailbox → Mailbox) {x : Mailbox} (hx : g (s.selBox m) = x) :
    (s.opened m).updBox m g = { s.opened m with ob.boxes := s.ob.boxes.set (s.copies m).mbsel x } := by
  subst hx
  cases m <;> rfl

theorem opened_copies (m : Master) (s : State) : (s.opened m).copies m = s.copies m := by cases m <;> rfl

/-- R96: LOAD takes the writer's own staging. -/
theorem writeBy_load (hs : s.writeReady m 0x6A#8) (ho : s.owns m .outbox) (he : (s.selBox m).state = .empty) :
    writeBy m 0x6A#8 1#8 s = State.closed m { s.opened m with
      ob.boxes := s.ob.boxes.set (s.copies m).mbsel ((s.selBox m).load (s.copies m).mail) } := by
  rw [← opened_updBox m (Mailbox.load (s.copies m).mail) rfl, ← opened_copies m s]
  exact writeBy_owned hs (r := .mbCmd) rfl rfl ho (by simp [mbCmd_busy, he]) rfl nofun

theorem writeBy_arm (hs : s.writeReady m 0x6A#8) (ho : s.owns m .outbox) (he : (s.selBox m).state = .empty)
    {x : Mailbox} (hx : (s.selBox m).arm = x) : writeBy m 0x6A#8 2#8 s =
      State.closed m { s.opened m with ob.boxes := s.ob.boxes.set (s.copies m).mbsel x } := by
  rw [← opened_updBox m Mailbox.arm hx]
  exact writeBy_owned hs (r := .mbCmd) rfl rfl ho (by simp [mbCmd_busy, he]) rfl nofun

/-- R96: CANCEL acts in every state of the mailbox. -/
theorem writeBy_cancel (hs : s.writeReady m 0x6A#8) (ho : s.owns m .outbox) {x : Mailbox}
    (hx : (s.selBox m).cancel = x) : writeBy m 0x6A#8 3#8 s =
      State.closed m { s.opened m with ob.boxes := s.ob.boxes.set (s.copies m).mbsel x } := by
  rw [← opened_updBox m Mailbox.cancel hx]
  exact writeBy_owned hs (r := .mbCmd) rfl rfl ho rfl rfl nofun

theorem registerAfter_mbData : ∀ k : Fin 16, registerAfter 0x6D#8 (Fin.natAdd 4 k).val = 0x71#8 + BitVec.ofNat 8 k.val := by
  decide

end

end Sys2Proof.Machine

namespace Sys2Proof.Proofs

open Sys2Proof.Machine

/-- Settles O50: the command by the state of the mailbox that the writer selects, then each staging byte by its range. -/
theorem mailboxCommands : Obligations.MailboxCommands := by
  intro m s ho o i b box staged mail
  refine ⟨fun hs => ⟨fun he => ⟨?_, fun hp => ?_, fun hp => ?_, ?_⟩, fun he => ⟨?_, ?_⟩, fun hr => ?_, fun hoff => ?_⟩,
    fun v => ⟨fun hs => ⟨fun hv => ?_, fun hv => ?_⟩, fun hs => ⟨fun hv => ?_, fun hv => ?_⟩, fun hs => ?_, fun hs => ?_,
      fun k hs => ?_⟩⟩
  · exact congrArg _ (writeBy_load hs ho he)
  · exact congrArg _ (writeBy_arm hs ho he (Mailbox.armed_of_oneShot hp))
  · exact congrArg _ (writeBy_arm hs ho he (Mailbox.armed_of_periodic hp))
  · exact congrArg _ (writeBy_cancel hs ho (Mailbox.cancel_empty he))
  · exact congrArg _ (writeBy_mbCmd_of_busy hs ho (.inl rfl) he)
  · exact congrArg _ (writeBy_mbCmd_of_busy hs ho (.inr rfl) he)
  · exact congrArg _ (writeBy_cancel hs ho (Mailbox.cancel_ready hr))
  · exact congrArg _ (writeBy_cancel hs ho (Mailbox.cancel_offered hoff))
  · have hw := writeBy_owned hs (r := .mbChan) rfl rfl ho rfl (by simpa [outOfRange] using hv) nofun
    cases m <;> exact congrArg _ hw
  · exact congrArg _ (writeBy_range hs (r := .mbChan) rfl rfl ho rfl (decide_eq_true hv))
  · have hw := writeBy_owned hs (r := .mbLen) rfl rfl ho rfl (by simpa [outOfRange] using hv) nofun
    cases m <;> exact congrArg _ hw
  · exact congrArg _ (writeBy_range hs (r := .mbLen) rfl rfl ho rfl (decide_eq_true hv))
  · have hw := writeBy_owned hs (v := v) (r := .mbPeriod 0) rfl rfl ho rfl rfl nofun
    cases m <;> exact congrArg _ hw
  · have hw := writeBy_owned hs (v := v) (r := .mbPeriod 1) rfl rfl ho rfl rfl nofun
    cases m <;> exact congrArg _ hw
  · have hw := writeBy_owned hs (v := v) (regAt_mbData k) rfl ho rfl rfl nofun
    rw [← registerAfter_mbData] at hw
    cases m <;> exact congrArg _ hw

end Sys2Proof.Proofs

/-! SUPPORT. The inbound queue, the sense inputs and the lamp records, each by itself: what a delivery, a take, a sample, a
command or a write makes of them. -/

namespace Sys2Proof.Machine

/-! ### The inbound queue (R124) -/

/-- The relations of a queue with the next tag. -/
structure QueueSound (queue : List IqRecord) (nextTag : Byte) : Prop where
  room : queue.length ≤ Config.queueRecords
  fields : ∀ r ∈ queue, r.chan.toNat ≤ 63 ∧ r.payload.length ≤ 16 ∧ r.filt ≤ 8
  tags : ∀ i : Nat, ∀ h : i < queue.length, (queue[i]).tag = nextTag - BitVec.ofNat 8 (queue.length - i)

theorem inboxSound_iff (s : State) : s.InboxSound ↔ QueueSound s.ib.queue s.ib.nextTag :=
  ⟨fun h => ⟨h.room, h.fields, h.tags⟩, fun h => ⟨h.room, h.fields, h.tags⟩⟩

theorem queueSound_nil (nextTag : Byte) : QueueSound [] nextTag :=
  ⟨Nat.zero_le _, nofun, fun _ h => absurd h (Nat.not_lt_zero _)⟩

/-- A record with the next tag joins a queue that has room. -/
theorem QueueSound.append {queue : List IqRecord} {r : IqRecord} (h : QueueSound queue r.tag)
    (hroom : queue.length < Config.queueRecords) (hr : r.chan.toNat ≤ 63 ∧ r.payload.length ≤ 16 ∧ r.filt ≤ 8) :
    QueueSound (queue ++ [r]) (r.tag + 1) where
  room := by simpa using hroom
  fields x hx := by
    rcases List.mem_append.1 hx with hx | hx
    · exact h.fields x hx
    · rw [List.mem_singleton.1 hx]
      exact hr
  tags i hi := by
    have hlen : (queue ++ [r]).length - i = queue.length - i + 1 := by
      simp only [List.length_append, List.length_singleton] at hi ⊢
      omega
    have hgap : ∀ n : Nat, r.tag + 1 - BitVec.ofNat 8 (n + 1) = r.tag - BitVec.ofNat 8 n := by
      intro n
      rw [BitVec.ofNat_add]
      exact add_sub_add_right_eq_sub _ _ _
    rw [hlen, hgap]
    by_cases hold : i < queue.length
    · rw [List.getElem_append_left hold]
      exact h.tags i hold
    · have hlast : i = queue.length := by
        simp only [List.length_append, List.length_singleton] at hi
        omega
      subst hlast
      simp

/-- The oldest record leaves (R126). -/
theorem QueueSound.tail {queue : List IqRecord} {nextTag : Byte} (h : QueueSound queue nextTag) :
    QueueSound queue.tail nextTag where
  room := by
    have := h.room
    simp only [List.length_tail]
    omega
  fields r hr := h.fields r (List.mem_of_mem_tail hr)
  tags i hi := by
    have hi' : i + 1 < queue.length := by
      simp only [List.length_tail] at hi
      omega
    have hlen : queue.tail.length - i = queue.length - (i + 1) := by
      simp only [List.length_tail]
      omega
    rw [hlen, List.getElem_tail]
    exact h.tags (i + 1) hi'

/-- The filter index is 0..8 (R117). -/
theorem judge_filt_le (ib : Inbound) (chan : Byte) : (ib.judge chan).filt ≤ 8 := by
  unfold Inbound.judge
  split
  · rename_i i _
    exact Nat.le_of_lt i.isLt
  · exact Nat.le_refl 8

/-! ### One sense input (R150) -/

/-- An input that is disabled or not primed has debounced level 0 and debounce counter 0. -/
def SenseInput.Sound (i : SenseInput) : Prop := (i.en = false ∨ i.primed = false) → i.level = false ∧ i.counter = 0

theorem unprimed_sound (i : SenseInput) : i.unprimed.Sound := fun _ => ⟨rfl, rfl⟩

/-- R152: an enabled input is primed by its first sample, and stays so. -/
theorem sample_of_enabled {i : SenseInput} (raw : Bool) (h : i.en = true) :
    (i.sample raw).en = true ∧ (i.sample raw).primed = true := by
  cases hp : i.primed with
  | false => rw [sample_of_unprimed raw h hp]; exact ⟨h, rfl⟩
  | true =>
    by_cases hr : raw = i.level
    · rw [sample_of_same h hp hr]; exact ⟨h, hp⟩
    by_cases hc : i.debounce.toNat ≤ i.counter + 1
    · rw [sample_of_flip h hp hr hc]; exact ⟨h, hp⟩
    · rw [sample_of_differing h hp hr (by omega)]; exact ⟨h, hp⟩

theorem SenseInput.Sound.sample {i : SenseInput} (h : i.Sound) (raw : Bool) : (i.sample raw).Sound := by
  cases he : i.en with
  | false => rw [sample_of_disabled raw he]; exact h
  | true =>
    obtain ⟨hen, hprimed⟩ := sample_of_enabled raw he
    rintro (hoff | hoff)
    · exact absurd (hen.symm.trans hoff) nofun
    · exact absurd (hprimed.symm.trans hoff) nofun

theorem SenseInput.Sound.configure {i : SenseInput} (h : i.Sound) (v : Byte) : (i.configure v).Sound := by
  by_cases hv : v.getLsbD 0 = i.en
  · rw [configure_of_same hv]
    exact fun hoff => h (hv ▸ hoff)
  · rw [configure_of_change hv]
    exact fun _ => ⟨rfl, rfl⟩

/-! ### One lamp (R162, R164, R171) -/

/-- A lamp time in units of 10 ms, which is not 0, in ticks. -/
theorem lampTime_ticks {v : Byte} (h : v ≠ 0#8) : 1 ≤ v.toNat * 10 ∧ v.toNat * 10 ≤ 2550 := by
  have h0 : v.toNat ≠ 0 := fun e => h (BitVec.eq_of_toNat_eq e)
  have hlt := v.isLt
  omega

section
variable {l : Lamp}

/-- A lamp enters a phase without a timer. -/
theorem Lamp.Sound.enterUntimed (h : l.Sound) {p : LampPhase} (hp : p.timed = false) {level : BitVec 4}
    (hl : p = .off → level = 0#4) (count : Nat) :
    Lamp.Sound { l with phase := p, level := level, remaining := 0, count := count } where
  times := h.times
  off := hl
  timed ht := absurd (hp.symm.trans ht) nofun
  untimed _ := rfl

/-- A lamp enters a phase with a timer. -/
theorem Lamp.Sound.enterTimed (h : l.Sound) {p : LampPhase} (hp : p.timed = true) (level : BitVec 4) {v : Byte}
    (hv : v ≠ 0#8) (count : Nat) :
    Lamp.Sound { l with phase := p, level := level, remaining := v.toNat * 10, count := count } where
  times := h.times
  off ho := by
    subst ho
    cases hp
  timed _ := lampTime_ticks hv
  untimed ht := absurd (hp.symm.trans ht) nofun

theorem followPhase_untimed (l : Lamp) (down : BitVec 48) :
    (l.followPhase down).timed = false ∧ l.followPhase down ≠ .off := by
  unfold Lamp.followPhase
  split <;> exact ⟨rfl, nofun⟩

/-- R168: a command carried out. -/
theorem Lamp.Sound.run (h : l.Sound) (op : LampOp) (level : BitVec 4) (down : BitVec 48) : (l.run op level down).Sound := by
  obtain ⟨hlon, -, hlwidth⟩ := h.times
  obtain ⟨hfollow, hne⟩ := followPhase_untimed l down
  cases op with
  | off => exact h.enterUntimed rfl (fun _ => rfl) 0
  | on => exact h.enterUntimed (p := .on) rfl nofun 0
  | blink => exact h.enterTimed rfl level hlon _
  | pulse =>
    unfold Lamp.run
    dsimp only
    split
    · exact h.enterTimed rfl level hlwidth 0
    · exact h.enterTimed rfl level ‹_› 0
  | follow => exact h.enterUntimed hfollow (fun e => absurd e hne) 0

/-- R171: what follows the end of a phase. -/
theorem Lamp.Sound.nextPhase (h : l.Sound) : l.nextPhase.Sound := by
  obtain ⟨hlon, hloff, hlwidth⟩ := h.times
  unfold Lamp.nextPhase
  split
  · split
    · exact h.enterUntimed rfl (fun _ => rfl) 0
    · exact h.enterTimed rfl l.level hloff _
  · exact h.enterTimed rfl l.level hlon l.count
  · exact h.enterTimed rfl l.level hlwidth l.count
  · exact h.enterUntimed rfl (fun _ => rfl) l.count
  all_goals exact h

/-- R170: a phase that does not end at this tick keeps at least one tick. -/
theorem Lamp.Sound.tick (h : l.Sound) : l.tick.Sound := by
  cases hp : l.phase.timed with
  | false => rw [lamp_tick_of_untimed hp]; exact h
  | true =>
    obtain ⟨hmin, hmax⟩ := h.timed hp
    by_cases hr : 2 ≤ l.remaining
    · rw [lamp_tick_of_timed hp hr]
      exact ⟨h.times, h.off, fun _ => by dsimp only; omega, fun ht => absurd (hp.symm.trans ht) nofun⟩
    · have hends : l.ends = true := by simp [Lamp.ends, hp]; omega
      rw [Lamp.tick, if_pos hends]
      exact h.nextPhase

/-- R172: a lamp in FOLLOW changes between the two phases of FOLLOW. -/
theorem Lamp.Sound.refollow (h : l.Sound) (down : BitVec 48) : (l.refollow down).Sound := by
  unfold Lamp.refollow
  split
  · rename_i hf
    obtain ⟨hfollow, hne⟩ := followPhase_untimed l down
    have hr : l.remaining = 0 := h.untimed (by revert hf; cases l.phase <;> simp [LampPhase.following, LampPhase.timed])
    exact ⟨h.times, fun e => absurd e hne, fun ht => absurd (hfollow.symm.trans ht) nofun, fun _ => hr⟩
  · exact h

theorem Lamp.Sound.rebind (h : l.Sound) (v : Byte) (down : BitVec 48) : (l.rebind v down).Sound :=
  Lamp.Sound.refollow (l := { l with bind := v }) ⟨h.times, h.off, h.timed, h.untimed⟩ down

theorem Lamp.Sound.restart (h : l.Sound) : l.restart.Sound := h.enterUntimed rfl (fun _ => rfl) 0

end

theorem powerOn_lamp_sound (n : Nat) : (Lamp.powerOn n).Sound where
  times := ⟨nofun, nofun, nofun⟩
  off _ := rfl
  timed := nofun
  untimed _ := rfl

/-! ### The lamp engine -/

/-- Every lamp's record. -/
def Lamps.Sound (lm : Lamps) : Prop := ∀ n : Fin 12, lm.lamps[n].Sound

section
variable {lm : Lamps}

/-- One lamp replaced. -/
theorem Lamps.Sound.setLamp (h : lm.Sound) (n : Fin 12) {l : Lamp} (hl : l.Sound) : (lm.setLamp n l).Sound := by
  intro k
  by_cases hk : n.val = k.val
  · simpa [Lamps.setLamp, hk] using hl
  · simpa [Lamps.setLamp, hk] using h k

theorem Lamps.Sound.run (h : lm.Sound) (n : Fin 12) (op : LampOp) (level : BitVec 4) : (lm.run n op level).Sound :=
  h.setLamp n ((h n).run op level lm.down)

theorem Lamps.Sound.deliverOne (h : lm.Sound) (op : LampOp) (level : BitVec 4) (n : Fin 12) :
    (lm.deliverOne op level n).Sound := by
  unfold Lamps.deliverOne
  dsimp only
  split
  · exact h.run n op level
  · exact h

/-- R130: a delivered command, for one lamp or for all. -/
theorem Lamps.Sound.deliver (h : lm.Sound) (c : LampCommand) : (lm.deliver c).Sound := by
  have hall : ∀ (ns : List (Fin 12)) {lm : Lamps}, lm.Sound → (ns.foldl (Lamps.deliverOne c.op c.level) lm).Sound := by
    intro ns
    induction ns with
    | nil => exact id
    | cons n rest ih => exact fun h => ih (h.deliverOne c.op c.level n)
  unfold Lamps.deliver
  split
  · exact h.deliverOne _ _ _
  · exact hall _ h

/-- R129: a payload's commands, one after another. -/
theorem Lamps.Sound.payload : ∀ (bytes : List Byte) {lm : Lamps}, lm.Sound → (lm.payload bytes).Sound
  | [], _, h => h
  | [_], _, h => h
  | b :: c :: rest, lm, h => by
    have hdenied : lm.deny.Sound := h
    rw [Lamps.payload]
    split
    · exact Lamps.Sound.payload rest hdenied
    · exact Lamps.Sound.payload rest (h.deliver _)

theorem Lamps.Sound.tick (h : lm.Sound) : lm.tick.Sound := by
  intro n
  rw [lamps_tick_getElem]
  exact (h n).tick

theorem Lamps.Sound.takeDown (h : lm.Sound) (down : BitVec 48) : (lm.takeDown down).Sound := by
  intro n
  rw [takeDown_lamp]
  exact (h n).refollow down

theorem Lamps.Sound.restart (h : lm.Sound) : lm.restart.Sound := by
  intro n
  have hn : lm.restart.lamps[n] = lm.lamps[n].restart := by simp [Lamps.restart]
  rw [hn]
  exact (h n).restart

end

theorem powerOn_lamps_sound : Lamps.powerOn.Sound := by
  intro n
  have hn : Lamps.powerOn.lamps[n] = Lamp.powerOn n := by simp [Lamps.powerOn]
  rw [hn]
  exact powerOn_lamp_sound n

end Sys2Proof.Machine

/-! SUPPORT. The inbound queue, the sense inputs and the lamp records in the machine: every event keeps their relations; and the
statement on every step. -/

namespace Sys2Proof.Machine

/-- The relations of the inbound queue, of the sense inputs and of the lamp records. -/
def State.RecordsSound (s : State) : Prop :=
  QueueSound s.ib.queue s.ib.nextTag ∧ (∀ n : Fin 4, s.st.inputs[n].Sound) ∧ s.lm.Sound

theorem recordsSound_iff (s : State) : s.RecordsSound ↔ s.InboxSound ∧ s.inputsSound ∧ s.lampsSound := by
  rw [inboxSound_iff]
  rfl

section
variable {s t : State}

theorem State.RecordsSound.lamps (h : s.RecordsSound) : s.lm.Sound := h.2.2

theorem State.RecordsSound.ite {p : Prop} [Decidable p] (h : s.RecordsSound) (h' : t.RecordsSound) :
    (if p then s else t).RecordsSound := by split <;> assumption

theorem State.RecordsSound.setLamps (h : s.RecordsSound) {lm : Lamps} (hl : lm.Sound) :
    State.RecordsSound { s with lm := lm } := by
  obtain ⟨hq, hi, -⟩ := h
  exact ⟨hq, hi, hl⟩

/-- The writer's selected lamp replaced. -/
theorem State.RecordsSound.updLamp (h : s.RecordsSound) (m : Master) {f : Lamp → Lamp}
    (hf : (f (s.selLamp m)).Sound) : (s.updLamp m f).RecordsSound :=
  h.setLamps (h.lamps.setLamp _ hf)

/-! ### Records, sleep and waking -/

theorem State.RecordsSound.recordAll (h : s.RecordsSound) (es : List Event) : (s.recordAll es).RecordsSound := by
  rw [recordAll_eq]
  exact h

theorem State.RecordsSound.forcedRelease (h : s.RecordsSound) : s.forcedRelease.RecordsSound := by
  rw [forcedRelease_eq]
  exact h.setLamps (h.lamps.takeDown _)

theorem State.RecordsSound.requestWake (h : s.RecordsSound) (c : WakeCause) (detail : Byte) :
    (s.requestWake c detail).RecordsSound := by
  rw [requestWake_eq]
  exact h

theorem State.RecordsSound.enterSleep (h : s.RecordsSound) : s.enterSleep.RecordsSound := by
  cases he : s.ks.en with
  | false => rw [enterSleep_of_disabled s he]; exact h
  | true =>
    rw [enterSleep_of_enabled s he]
    exact State.RecordsSound.forcedRelease (s := { s with pr.state := .sleep }) h

theorem State.RecordsSound.finishWake (h : s.RecordsSound) : s.finishWake.RecordsSound := by
  rw [finishWake_eq]
  exact h

theorem State.RecordsSound.completeScan (h : s.RecordsSound) (keys : BitVec 48) : (s.completeScan keys).RecordsSound := by
  by_cases hw : s.pr.state = .waking
  · rw [State.completeScan, hw]
    exact h
  · rcases awake_or_sleep hw with ha | hs
    · rw [scan_exec keys s ha]
      exact h.setLamps (h.lamps.takeDown _)
    · rw [completeScan_sleep keys hs]
      exact h

/-! ### Link transitions (R41 to R48) -/

theorem State.RecordsSound.returnToSource (h : s.RecordsSound) : s.returnToSource.RecordsSound := by
  rw [returnToSource_eq]
  exact h

theorem State.RecordsSound.join (h : s.RecordsSound) : s.join.RecordsSound := .ite h.returnToSource h

theorem State.RecordsSound.hush (h : s.RecordsSound) (d : Half) : (s.hush d).RecordsSound := by
  unfold State.hush
  split
  · exact h.returnToSource
  all_goals exact h

theorem State.RecordsSound.clash (h : s.RecordsSound) : s.clash.RecordsSound := h.returnToSource

theorem State.RecordsSound.serveRollcallBySerial (h : s.RecordsSound) (body : List Byte) :
    (s.serveRollcallBySerial body).RecordsSound := .ite (.ite h.returnToSource h.returnToSource) h

theorem State.RecordsSound.disableLink (h : s.RecordsSound) : s.disableLink.RecordsSound := by
  rw [disableLink_eq s s rfl rfl]
  exact h

theorem State.RecordsSound.writeLinkCtl (h : s.RecordsSound) (v : Byte) : (s.writeLinkCtl v).RecordsSound :=
  have h1 : State.RecordsSound { s with link.rate := v.extractLsb' 1 2, link.en := v.getLsbD 0 } := h
  .ite h (.ite h1.disableLink h1)

/-! ### The tick -/

theorem State.RecordsSound.tickWatchdog (h : s.RecordsSound) : s.tickWatchdog.RecordsSound :=
  .ite h.returnToSource (.ite h h)

theorem State.RecordsSound.tickQuiet (h : s.RecordsSound) : s.tickQuiet.RecordsSound := by
  refine .ite h ?_
  split
  · exact .ite h h
  all_goals exact h

theorem State.RecordsSound.tickRefresh (h : s.RecordsSound) : s.tickRefresh.RecordsSound := .ite (.ite h h) h

/-- R170: every lamp's timer. -/
theorem State.RecordsSound.tickLamps (h : s.RecordsSound) : s.tickLamps.RecordsSound :=
  .ite ((h.setLamps h.lamps.tick).recordAll _) h

/-- R152: every enabled input is sampled; in SLEEP one may ask for a wake (R154). -/
theorem State.RecordsSound.tickSense (h : s.RecordsSound) (sns : BitVec 4) : (s.tickSense sns).RecordsSound := by
  have hsampled : State.RecordsSound { s with st := s.st.sampleAll sns } := by
    obtain ⟨hq, hi, hl⟩ := h
    refine ⟨hq, fun n => ?_, hl⟩
    rw [sampleAll_getElem]
    exact (hi n).sample _
  unfold State.tickSense
  split
  case h_4 =>
    split
    · exact h.requestWake _ _
    · exact h
  case h_5 => exact h
  all_goals exact hsampled.recordAll _

theorem State.RecordsSound.tick (h : s.RecordsSound) (sns : BitVec 4) : (s.tick sns).RecordsSound := by
  have h0 : s.tickTime.RecordsSound := h
  have h1 : s.tickTime.tickWatchdog.tickQuiet.tickRefresh.tickLamps.tickScan.RecordsSound :=
    h0.tickWatchdog.tickQuiet.tickRefresh.tickLamps
  exact h1.tickSense sns

/-! ### POLL (R100 to R106) -/

theorem State.RecordsSound.pollAcknowledge (h : s.RecordsSound) (av : Bool) (tn : BitVec 3) :
    (s.pollAcknowledge av tn).RecordsSound := by
  unfold State.pollAcknowledge
  split
  · exact h
  · refine .ite ?_ h
    unfold State.acknowledge
    split <;> exact h

theorem State.RecordsSound.pollUnacknowledged (h : s.RecordsSound) : s.pollUnacknowledged.RecordsSound := by
  unfold State.pollUnacknowledged
  split
  · exact h
  · refine .ite ?_ (.ite h ?_)
    · unfold State.withdraw
      split <;> exact h
    · unfold State.dropItem
      split <;> exact h

theorem State.RecordsSound.pollSelect (h : s.RecordsSound) : s.pollSelect.RecordsSound := by
  unfold State.pollSelect
  split
  · exact h
  split
  · exact h
  · unfold State.composeItem
    split <;> exact h

theorem State.RecordsSound.servePoll (h : s.RecordsSound) (av : Bool) (tn : BitVec 3) :
    (s.servePoll av tn).RecordsSound := by
  have h1 : (s.pollStages av tn).RecordsSound := (h.pollAcknowledge av tn).pollUnacknowledged.pollSelect
  unfold State.servePoll State.replyPoll
  split <;> exact h1

/-! ### DELIVER (R114 to R121) -/

/-- An accepted delivery: a record is stored only where the queue has room, and the lamps carry out the payload. -/
theorem State.RecordsSound.applyDelivery (h : s.RecordsSound) {chan : Byte} {payload : List Byte} {v : Verdict}
    {stores : Bool} (broadcast : Bool) (hchan : chan.toNat ≤ 63) (hlen : payload.length ≤ 16) (hfilt : v.filt ≤ 8)
    (hroom : stores = true → s.ib.full = false) : (s.applyDelivery chan payload v stores broadcast).RecordsSound := by
  obtain ⟨hq, hi, hl⟩ := h
  rw [applyDelivery_eq]
  refine ⟨?_, hi, ?_⟩
  · cases stores with
    | false => exact hq
    | true =>
      have hspace : s.ib.queue.length < Config.queueRecords := by simpa [Inbound.full] using hroom rfl
      exact hq.append (r := ⟨s.ib.nextTag, chan, payload, v.filt, broadcast, s.stamp⟩) hspace ⟨hchan, hlen, hfilt⟩
  · cases v.action.lamps with
    | false => exact hl
    | true => exact hl.payload payload

theorem State.RecordsSound.serveDeliver (h : s.RecordsSound) (tn : BitVec 3) (chan : Byte) {payload : List Byte}
    (hlen : payload.length ≤ 16) : (s.serveDeliver tn chan payload).RecordsSound := by
  show (s.deliver tn chan payload).1.RecordsSound
  unfold State.deliver
  dsimp only
  repeat' split
  case isFalse.isFalse.isFalse.isFalse hchan hfull =>
    exact h.applyDelivery false (Nat.le_of_not_lt hchan) hlen (judge_filt_le _ _) (by simpa using hfull)
  all_goals exact h

theorem State.RecordsSound.deliverAll (h : s.RecordsSound) (chan : Byte) {payload : List Byte}
    (hlen : payload.length ≤ 16) : (s.deliverAll chan payload).RecordsSound := by
  have hdropped : State.RecordsSound (State.raise1 iqDropFlag { s with ib.drops := counted s.ib.drops }) := h
  unfold State.deliverAll
  dsimp only
  split
  · exact h
  rename_i hchan
  have hchan := Nat.le_of_not_lt hchan
  split
  · exact hdropped.applyDelivery true hchan hlen (judge_filt_le _ _) nofun
  · rename_i hfull
    exact h.applyDelivery true hchan hlen (judge_filt_le _ _) (by simpa using hfull)

/-! ### Register writes -/

/-- R151: a write of SENSECTLn. -/
theorem State.RecordsSound.configure (h : s.RecordsSound) (n : Fin 4) (v : Byte) :
    State.RecordsSound { s with st.inputs := s.st.inputs.set n (s.st.inputs[n].configure v) } := by
  obtain ⟨hq, hi, hl⟩ := h
  refine ⟨hq, fun k => ?_, hl⟩
  by_cases hk : n.val = k.val
  · simpa [hk] using (hi k).configure v
  · simpa [hk] using hi k

theorem softRestart_recordsSound (h : s.RecordsSound) : s.softRestart.RecordsSound := by
  refine ⟨queueSound_nil _, fun n => ?_, h.lamps.restart⟩
  have hn : s.st.restart.inputs[n] = s.st.inputs[n].unprimed := by simp [Sense.restart]
  show (s.st.restart.inputs[n]).Sound
  rw [hn]
  exact unprimed_sound _

theorem powerOnReset_recordsSound (p : Straps) (s : State) : (s.powerOnReset p).RecordsSound := by
  refine ⟨queueSound_nil _, fun n => ?_, powerOn_lamps_sound⟩
  have hn : Sense.powerOn.inputs[n] = SenseInput.powerOn := by simp [Sense.powerOn]
  show (Sense.powerOn.inputs[n]).Sound
  rw [hn]
  exact fun _ => ⟨rfl, rfl⟩

/-- A write in range of any register by either master: LON, LOFF and LWIDTH are not written 0 (R164). -/
theorem State.RecordsSound.applyWrite (h : s.RecordsSound) (m : Master) {r : Reg} {v : Byte}
    (hv : outOfRange r v = false) : (s.applyWrite m r v).RecordsSound := by
  have hsel : (s.selLamp m).Sound := h.lamps _
  obtain ⟨hlon, hloff, hlwidth⟩ := hsel.times
  have htime (hr : r ∈ [.lon, .loff, .lwidth]) : v ≠ 0#8 := by simpa [lampTime_outOfRange hr] using hv
  cases r
  case restart =>
    cases m with
    | host => exact softRestart_recordsSound h
    | head => exact h
  case linkCtl => exact h.writeLinkCtl v
  case scanCtl =>
    have h1 : State.RecordsSound { s with ks.en := v.getLsbD 0, ks.sleepWake := v.getLsbD 1 } := h
    exact .ite h (.ite h1.forcedRelease h)
  case senseCtl n => exact h.configure n v
  case iqtake =>
    obtain ⟨hq, hi, hl⟩ := h
    exact ⟨hq.tail, hi, hl⟩
  case lgo => exact h.setLamps (h.lamps.run _ _ _)
  case lbind => exact h.updLamp m (hsel.rebind v _)
  case lon => exact h.updLamp m ⟨⟨htime (by simp), hloff, hlwidth⟩, hsel.off, hsel.timed, hsel.untimed⟩
  case loff => exact h.updLamp m ⟨⟨hlon, htime (by simp), hlwidth⟩, hsel.off, hsel.timed, hsel.untimed⟩
  case lwidth => exact h.updLamp m ⟨⟨hlon, hloff, htime (by simp)⟩, hsel.off, hsel.timed, hsel.untimed⟩
  case lcfg | lcount | ldelay => exact h.updLamp m ⟨hsel.times, hsel.off, hsel.timed, hsel.untimed⟩
  case localTime i => simp only [State.applyWrite, State.writeLocalTime]; split <;> cases m <;> exact h
  case mbCmd => exact .ite h (.ite h h)
  case iflags0 => exact .ite h h
  all_goals cases m <;> exact h

/-- R62: the bytes of a POKE that the access check lets pass. -/
theorem State.RecordsSound.writeSpan (h : s.RecordsSound) (data : List Byte) (addr : Byte) (judge : State)
    (hj : judge.firstRefusal addr data = none) : (s.writeSpan addr data).RecordsSound := by
  induction data generalizing addr judge s with
  | nil => exact h
  | cons v rest ih =>
    rw [State.firstRefusal] at hj
    cases hc : judge.check .head (regAt addr) v with
    | some c => simp [hc] at hj
    | none =>
      rw [hc] at hj
      exact ih (h.applyWrite .head (inRange_of_check hc)) _ _ hj

theorem State.RecordsSound.servePoke (h : s.RecordsSound) (addr : Byte) (data : List Byte) :
    (s.servePoke addr data).RecordsSound := by
  unfold State.servePoke
  split
  · exact h
  split
  · exact h
  · rename_i hj
    have hw := h.writeSpan data addr s hj
    exact .ite hw hw

/-! ### Every frame -/

theorem State.RecordsSound.dispatch (h : s.RecordsSound) {f : Frame} (hb : f.bodyRule) : (s.dispatch f).RecordsSound := by
  obtain ⟨-, -, hdeliver, -⟩ := hb
  unfold State.dispatch
  cases hk : f.kind with
  | rollcall => exact .ite (.ite h.join h) (h.serveRollcallBySerial f.body)
  | poll => exact .ite (h.servePoll ..) h
  | deliver =>
    have hlen : (f.body.drop 1).length ≤ 16 := by
      obtain ⟨-, h17⟩ := hdeliver hk
      simp only [List.length_drop]
      omega
    exact .ite (.ite (h.deliverAll _ hlen) h) (.ite (h.serveDeliver _ _ hlen) h)
  | peek =>
    have h1 : (s.captureSpan (byteAt f.body 0) (byteAt f.body 1).toNat).RecordsSound := by rw [captureSpan_eq]; exact h
    exact .ite (.ite h h1) h
  | poke => exact .ite (h.servePoke ..) h
  | hush => exact h.hush _
  | beacon => exact .ite h h
  | hello | answer | nothing | receipt | regval => exact h

theorem State.RecordsSound.processFrame (h : s.RecordsSound) {c : FrameClass} (hc : ∀ f, c = .valid f → f.bodyRule) :
    (s.processFrame c).RecordsSound := by
  cases c with
  | valid f => exact .ite (State.RecordsSound.dispatch (s := s.hearHead) h (hc f rfl)) (.ite h.clash h)
  | badFormat | badCrc | unknownKind | misdirected => exact h

theorem State.RecordsSound.completeFrame (h : s.RecordsSound) (bytes : List RxByte) :
    (s.completeFrame bytes).RecordsSound := by
  have h1 : State.RecordsSound { s with link.rx := Receiver.completed } := h
  unfold State.completeFrame
  dsimp only
  split
  · exact .ite (h1.requestWake .link 0) h1
  · exact h1
  all_goals exact h1.processFrame fun f hf => bodyRule_of_classify hf

/-! ### SPI bytes -/

theorem State.RecordsSound.loadOut (h : s.RecordsSound) : s.loadOut.RecordsSound := by rw [loadOut_eq]; exact h

theorem State.RecordsSound.advance (h : s.RecordsSound) : s.advance.RecordsSound := .ite h h

theorem State.RecordsSound.fetch (h : s.RecordsSound) : s.fetch.RecordsSound := by rw [fetch_eq]; exact h

theorem State.RecordsSound.commandByte (h : s.RecordsSound) (b : Byte) : (s.commandByte b).RecordsSound := by
  have h1 (c : HostCommand) (p : Phase) : (s.setCommand c p).RecordsSound := h
  rw [commandByte_eq]
  exact State.RecordsSound.loadOut (.ite ((h1 _ _).requestWake .host 0) (h1 _ _))

theorem State.RecordsSound.readByte (h : s.RecordsSound) : s.readByte.RecordsSound := by
  have h1 : s.settleCapture.RecordsSound := by rw [settleCapture_eq]; exact h
  exact .ite h1.advance.fetch h1.advance.loadOut

/-- R6, R21: a write by the host, refused or carried out. -/
theorem State.RecordsSound.hostWriteByte (h : s.RecordsSound) (v : Byte) : (s.hostWriteByte v).RecordsSound := by
  unfold State.hostWriteByte
  dsimp only
  split
  · refine State.RecordsSound.loadOut (State.RecordsSound.advance ?_)
    rw [captureRefusal_eq]
    exact h
  · rename_i hc
    have hw := h.applyWrite .host (inRange_of_check hc)
    exact .ite hw hw.advance.loadOut

/-! ### Every event and every command -/

theorem State.RecordsSound.cancelPending (h : s.RecordsSound) : s.cancelPending.RecordsSound := .ite h h

theorem State.RecordsSound.startReply (h : s.RecordsSound) : s.startReply.RecordsSound := by
  unfold State.startReply; split <;> exact h

/-- Every event keeps the relations of the records. -/
theorem IsEvent.recordsSound {due : State → Bool} {f : State → State} (e : IsEvent due f) (h : s.RecordsSound) :
    (f s).RecordsSound := by
  cases e with
  | restart => exact softRestart_recordsSound h
  | wakeEnd => exact h.finishWake
  | scan _ keys => exact h.completeScan keys
  | tick _ sns => exact h.tick sns
  | sleepEntry => exact h.enterSleep
  | frame bytes => exact h.completeFrame (bytes s)
  | frameStart | discardedByte => exact h.cancelPending
  | replyStart => exact h.startReply
  | commandByte b => exact h.commandByte b
  | addressByte b => exact State.RecordsSound.loadOut h
  | turnaround => exact State.RecordsSound.fetch h
  | readData => exact h.readByte
  | statusStream | ignoredByte => exact h.loadOut
  | hostWrite _ v => exact h.hostWriteByte v
  | hunting | replyEnd | replyAbort | replyCancel | csnRise | csnFall | csnWhileHeld => exact h

theorem State.Reaches.recordsSound (hr : s.Reaches t) (h : s.RecordsSound) : t.RecordsSound := by
  induction hr with
  | refl => exact h
  | tail _ hstep ih =>
    obtain ⟨due, f, e, -, rfl⟩ := hstep
    exact e.recordsSound ih

/-- Every command keeps the relations of the records. -/
theorem exec_recordsSound {c : Instr} (h : s.RecordsSound) (he : exec c s = .next t) : t.RecordsSound := by
  cases hr : ofReset c with
  | false =>
    obtain ⟨u, hu, hreach⟩ := exec_reaches c s hr
    obtain rfl : u = t := by simpa [hu] using he
    exact hreach.recordsSound h
  | true =>
    match c, hr with
    | .powerOnReset p, _ | .pinReset p, _ =>
      cases he
      exact .ite h (powerOnReset_recordsSound p _)
    | .resetHeldLow, _ | .supplyBelowRange, _ =>
      cases he
      exact h

end

end Sys2Proof.Machine

namespace Sys2Proof.Proofs

open Sys2Proof.Machine

/-- Settles O59: a delivery is stored only where there is room, a lamp's time is never written 0, and so every event that a step
can be made of keeps the relations together. -/
theorem stepKeepsRecords : Obligations.StepKeepsRecords := fun s t hq hi hl h =>
  (recordsSound_iff t).1 (step_keeps (P := State.RecordsSound) (fun _ _ hs => hs) (fun _ _ _ => exec_recordsSound)
    ((recordsSound_iff s).2 ⟨hq, hi, hl⟩) h)

end Sys2Proof.Proofs

/-! SUPPORT. The filter table, the inbound queue's take and a payload of lamp commands, one equation per case; and the statements on
them. -/

namespace Sys2Proof.Machine

/-! ### The filter table (R117) -/

/-- The first index that satisfies a test is the one that a search of all indices finds. -/
theorem find?_finRange_of_first {n : Nat} {p : Fin n → Bool} {i : Fin n} (hi : p i = true)
    (hfirst : ∀ j : Fin n, j < i → p j = false) : (List.finRange n).find? p = some i := by
  rw [List.find?_eq_some_iff_getElem]
  refine ⟨hi, i.val, by simp, by simp, fun j hj => ?_⟩
  simpa using hfirst ⟨j, hj.trans i.isLt⟩ hj

theorem judge_of_first {ib : Inbound} {chan : Byte} {i : Fin 8} (hi : ib.filters[i].accepts chan = true)
    (hfirst : ∀ j : Fin 8, j < i → ib.filters[j].accepts chan = false) : ib.judge chan = {
      action := ib.filters[i].action, filt := i.val, notify := if ib.filters[i].notify then some i else none } := by
  rw [Inbound.judge, find?_finRange_of_first (p := fun i : Fin 8 => ib.filters[i].accepts chan) hi hfirst]

theorem judge_of_default {ib : Inbound} {chan : Byte} (h : ∀ j : Fin 8, ib.filters[j].accepts chan = false) :
    ib.judge chan = { action := ib.dflt, filt := 8, notify := none } := by
  have hnone : ((List.finRange 8).find? fun i => ib.filters[i].accepts chan) = none := by simpa using h
  rw [Inbound.judge, hnone]

/-! ### IQTAKE (R126, R127) -/

/-- R127: a take by the host is refused unless it names the oldest record. -/
theorem check_iqtake (s : State) (v : Byte) :
    s.check .host .iqtake v = if s.ib.queue.head?.map (·.tag) = some v then none else some .mismatch := by
  by_cases h : s.ib.queue.head?.map (·.tag) = some v <;>
    simp [State.check, Reg.writeClass, State.notOwner, State.busy, outOfRange, State.mismatch, -Option.map_eq_some_iff, h]

theorem exec_iqtake_of_named {s : State} {v : Byte} (hs : s.writeReady .host 0x5A#8)
    (h : s.ib.queue.head?.map (·.tag) = some v) :
    exec (.iqtake v) s = .next (State.closed .host { s with ib := s.ib.take }) :=
  congrArg Host.Outcome.next (writeBy_accepted hs ((check_iqtake s v).trans (if_pos h)) nofun)

theorem exec_iqtake_of_mismatch {s : State} {v : Byte} (hs : s.writeReady .host 0x5A#8)
    (h : s.ib.queue.head?.map (·.tag) ≠ some v) :
    exec (.iqtake v) s = .next (s.refusedWrite .host 0x5A#8 .mismatch) :=
  congrArg Host.Outcome.next (writeBy_refused hs ((check_iqtake s v).trans (if_neg h)))

/-! ### Lamp commands of a payload (R129, R130) -/

theorem lampOpOf_of_unassigned {n : Nat} (h : 4 < n) : lampOpOf n = none := by
  match n, h with
  | _ + 5, _ => rfl

theorem lampOpOf_of_assigned {n : Nat} {o : LampOp}
    (h : (n = 0 ∧ o = .off) ∨ (n = 1 ∧ o = .on) ∨ (n = 2 ∧ o = .blink) ∨ (n = 3 ∧ o = .pulse) ∨ (n = 4 ∧ o = .follow)) :
    lampOpOf n = some o := by
  rcases h with ⟨rfl, rfl⟩ | ⟨rfl, rfl⟩ | ⟨rfl, rfl⟩ | ⟨rfl, rfl⟩ | ⟨rfl, rfl⟩ <;> rfl

section
variable {b c : Byte} {o : LampOp}

/-- R129: an unassigned op, a level above 15 or a target of 12 to 14. -/
theorem ofBytes_of_malformed (h : 4 < (b.extractLsb' 4 4).toNat ∨
    (12 ≤ (b.extractLsb' 0 4).toNat ∧ (b.extractLsb' 0 4).toNat ≤ 14) ∨ 16 ≤ c.toNat) : LampCommand.ofBytes b c = none := by
  unfold LampCommand.ofBytes
  dsimp only
  rcases h with hop | ⟨hmin, hmax⟩ | hlevel
  · rw [lampOpOf_of_unassigned hop]
  · split
    · rfl
    · rw [dif_neg (by omega), if_neg (show ¬(b.extractLsb' 0 4).toNat = 15 by omega), ite_self]
  · split
    · rfl
    · exact if_pos hlevel

theorem ofBytes_of_one (ho : lampOpOf (b.extractLsb' 4 4).toNat = some o) (hc : c.toNat ≤ 15) {n : Fin 12}
    (hn : (b.extractLsb' 0 4).toNat = n.val) :
    LampCommand.ofBytes b c = some { op := o, target := some n, level := c.setWidth 4 } := by
  unfold LampCommand.ofBytes
  rw [ho]
  dsimp only
  rw [if_neg (by omega), dif_pos (hn ▸ n.isLt)]
  simp [hn]

theorem ofBytes_of_all (ho : lampOpOf (b.extractLsb' 4 4).toNat = some o) (hc : c.toNat ≤ 15)
    (hn : (b.extractLsb' 0 4).toNat = 15) :
    LampCommand.ofBytes b c = some { op := o, target := none, level := c.setWidth 4 } := by
  unfold LampCommand.ofBytes
  rw [ho]
  dsimp only
  rw [if_neg (by omega), dif_neg (by omega), if_pos hn]

end

section
variable {lm : Lamps}

theorem payload_of_malformed {b c : Byte} (h : LampCommand.ofBytes b c = none) (rest : List Byte) :
    lm.payload (b :: c :: rest) = lm.deny.payload rest := by rw [Lamps.payload, h]

theorem payload_of_command {b c : Byte} {cmd : LampCommand} (h : LampCommand.ofBytes b c = some cmd) (rest : List Byte) :
    lm.payload (b :: c :: rest) = (lm.deliver cmd).payload rest := by rw [Lamps.payload, h]

/-- R165, R169: the lamp obeys a delivered command unless it is LOCAL, or the command a PULSE and the lamp in PULSE. -/
theorem obeys_iff (l : Lamp) (o : LampOp) : (l.ctrl.admits .head && !l.retriggers o) = true ↔
    l.ctrl ≠ .localOnly ∧ (o = .pulse → l.phase ≠ .pulseWait ∧ l.phase ≠ .pulseLit) := by
  have hctrl : l.ctrl.admits .head = true ↔ l.ctrl ≠ .localOnly := by simp [← Bool.not_eq_false, admits_iff]
  have hphase : l.phase.pulsing = false ↔ l.phase ≠ .pulseWait ∧ l.phase ≠ .pulseLit := by cases l.phase <;> decide
  simp only [Bool.and_eq_true, Bool.not_eq_true', hctrl, Lamp.retriggers, Bool.and_eq_false_imp, beq_iff_eq, hphase]

theorem deliverOne_of_denied {o : LampOp} {n : Fin 12} (level : BitVec 4) (h : lm.lamps[n].ctrl = .localOnly ∨
    (o = .pulse ∧ (lm.lamps[n].phase = .pulseWait ∨ lm.lamps[n].phase = .pulseLit))) :
    lm.deliverOne o level n = lm.deny := by
  refine if_neg fun hobeys => ?_
  obtain ⟨hc, hp⟩ := (obeys_iff _ _).1 hobeys
  rcases h with hlocal | ⟨ho, hphase⟩
  · exact hc hlocal
  · obtain ⟨hwait, hlit⟩ := hp ho
    exact hphase.elim hwait hlit

theorem deliverOne_of_obeyed {o : LampOp} {n : Fin 12} (level : BitVec 4) (hc : lm.lamps[n].ctrl ≠ .localOnly)
    (hp : o = .pulse → lm.lamps[n].phase ≠ .pulseWait ∧ lm.lamps[n].phase ≠ .pulseLit) :
    lm.deliverOne o level n = lm.run n o level := if_pos ((obeys_iff _ _).2 ⟨hc, hp⟩)

end

end Sys2Proof.Machine

namespace Sys2Proof.Proofs

open Sys2Proof.Machine

/-- Settles O32: an entry agrees exactly if it accepts, so the search stops at the first that agrees, or at none. -/
theorem filterDecides : Obligations.FilterDecides := by
  intro chan ib agrees
  have hiff (i : Fin 8) : ib.filters[i].accepts chan = true ↔ agrees i := accepts_iff _ _
  have hno {i : Fin 8} (h : ¬agrees i) : ib.filters[i].accepts chan = false := by
    rw [← Bool.not_eq_true, hiff]
    exact h
  exact ⟨fun i hi hfirst => judge_of_first ((hiff i).2 hi) fun j hj => hno (hfirst j hj),
    fun h => judge_of_default fun j => hno (h j)⟩

/-- Settles O49: the take names the oldest record or it does not; the head's write has the class LOCAL_ONLY. -/
theorem inboundTake : Obligations.InboundTake := by
  refine ⟨fun v s hs => ⟨fun r rest hq => ⟨fun hv => ?_, fun hv => ?_⟩, fun hq => ?_⟩, fun v s hs => ?_⟩
  · have htake : s.ib.take = { s.ib with queue := rest } := by rw [Inbound.take, hq]; rfl
    rw [exec_iqtake_of_named hs (by rw [hq, hv]; rfl), htake]
  · exact exec_iqtake_of_mismatch hs (by simpa [hq] using Ne.symm hv)
  · exact exec_iqtake_of_mismatch hs (by simp [hq])
  · exact congrArg Host.Outcome.next (writeBy_refused hs (check_of_localOnly rfl))

/-- Settles O35: two bytes spell no command, a command for one lamp or one for all; and one lamp obeys or denies. -/
theorem lampPayload : Obligations.LampPayload := by
  intro lm denied
  refine ⟨rfl, fun _ => rfl, ?_, fun o level n => ⟨deliverOne_of_denied level, deliverOne_of_obeyed level⟩⟩
  intro b c rest op target
  refine ⟨fun h => ?_, fun o ho hc => ⟨fun n hn => ?_, fun hall => ?_⟩⟩
  · exact payload_of_malformed (ofBytes_of_malformed h) rest
  · exact payload_of_command (ofBytes_of_one (lampOpOf_of_assigned ho) hc hn) rest
  · exact payload_of_command (ofBytes_of_all (lampOpOf_of_assigned ho) hc hall) rest

end Sys2Proof.Proofs

/-! SUPPORT. A DELIVER, unicast and broadcast, one equation per test of R114 to R121, and what an accepted one does to each block;
and the statements on them. -/

namespace Sys2Proof.Machine

theorem queues_iff (a : Action) : a.queues = true ↔ a = .queue ∨ a = .both := by cases a <;> decide

theorem lamps_iff (a : Action) : a.lamps = true ↔ a = .lamp ∨ a = .both := by cases a <;> decide

/-- R118: a record that is to be stored finds the queue full. -/
theorem lost_iff (ib : Inbound) (a : Action) :
    (a.queues && ib.full) = true ↔ (a = .queue ∨ a = .both) ∧ 12 ≤ ib.queue.length := by
  simp [queues_iff, Inbound.full, Config.queueRecords]

/-- A record that is to be stored finds room. -/
theorem not_lost {ib : Inbound} {a : Action} (h : a = .queue ∨ a = .both → ib.queue.length < 12) :
    ¬(a.queues && ib.full) = true := by
  rw [lost_iff]
  exact fun ⟨hs, hfull⟩ => absurd (h hs) (Nat.not_lt.2 hfull)

section
variable {s : State} {tn : BitVec 3} {chan : Byte} {payload : List Byte} {v : Verdict} {stores broadcast : Bool}

/-! ### What an accepted delivery does, block by block (R119, R121) -/

theorem applyDelivery_of_stored (h : v.action = .queue ∨ v.action = .both) :
    (s.applyDelivery chan payload v v.action.queues broadcast).ib = s.ib.store chan payload v.filt broadcast s.stamp := by
  rw [applyDelivery_eq]
  exact if_pos ((queues_iff _).2 h)

theorem applyDelivery_of_unstored (h : ¬(v.action = .queue ∨ v.action = .both)) :
    (s.applyDelivery chan payload v v.action.queues broadcast).ib = s.ib := by
  rw [applyDelivery_eq]
  exact if_neg fun hq => h ((queues_iff _).1 hq)

theorem applyDelivery_of_lost : (s.applyDelivery chan payload v false broadcast).ib = s.ib := by rw [applyDelivery_eq]; rfl

theorem applyDelivery_of_lamps (h : v.action = .lamp ∨ v.action = .both) :
    (s.applyDelivery chan payload v stores broadcast).lm = s.lm.payload payload := by
  rw [applyDelivery_eq]
  exact if_pos ((lamps_iff _).2 h)

theorem applyDelivery_of_no_lamps (h : ¬(v.action = .lamp ∨ v.action = .both)) :
    (s.applyDelivery chan payload v stores broadcast).lm = s.lm := by
  rw [applyDelivery_eq]
  exact if_neg fun hl => h ((lamps_iff _).1 hl)

theorem applyDelivery_of_notify {i : Fin 8} (h : v.notify = some i) :
    (s.applyDelivery chan payload v stores broadcast).ia =
      { s.ia with fHit := s.ia.fHit ||| 1#8 <<< i.val, flags1 := s.ia.flags1 ||| fHitFlag } := by
  rw [applyDelivery_eq, h]; rfl

theorem applyDelivery_of_no_notify (h : v.notify = none) :
    (s.applyDelivery chan payload v stores broadcast).ia = s.ia := by rw [applyDelivery_eq, h]

/-- The blocks that an accepted delivery can change. -/
theorem applyDelivery_frame : s.applyDelivery chan payload v stores broadcast = { s with
    ib := (s.applyDelivery chan payload v stores broadcast).ib
    lm := (s.applyDelivery chan payload v stores broadcast).lm
    ia := (s.applyDelivery chan payload v stores broadcast).ia } := by rw [applyDelivery_eq]

/-! ### The tests of a unicast DELIVER in their order (R114 to R118) -/

theorem deliver_of_repeated (h : tn = s.ib.lastTurn) : s.deliver tn chan payload = (s, 0x01#8, 0#8) :=
  if_pos (beq_iff_eq.2 h)

theorem deliver_of_unexpected (h : tn ≠ s.ib.lastTurn) (he : tn ≠ s.ib.lastTurn + 1) :
    s.deliver tn chan payload = (s, 0x03#8, 0#8) :=
  (if_neg (by simpa using h)).trans (if_pos (bne_iff_ne.2 he))

/-- No turn is its own successor. -/
theorem turn_ne_of_next : ∀ {tn last : BitVec 3}, tn = last + 1 → tn ≠ last := by decide

/-- The expected turn: the channel and the room decide, and an accepted delivery's turn is the last accepted one. -/
theorem deliver_of_expected (h : tn = s.ib.lastTurn + 1) : s.deliver tn chan payload =
    if 63 < chan.toNat then (s, 0x13#8, chan)
    else if (s.ib.judge chan).action.queues && s.ib.full then (s, 0x02#8, 0#8)
    else
      ({ s.applyDelivery chan payload (s.ib.judge chan) (s.ib.judge chan).action.queues false with ib.lastTurn := tn },
        0x00#8, 0#8) :=
  (if_neg (by simpa using turn_ne_of_next h)).trans (if_neg (by simpa [Inbound.expected] using h))

theorem deliver_of_channel (h : tn = s.ib.lastTurn + 1) (hc : 64 ≤ chan.toNat) :
    s.deliver tn chan payload = (s, 0x13#8, chan) := (deliver_of_expected h).trans (if_pos hc)

theorem deliver_of_full (h : tn = s.ib.lastTurn + 1) (hc : chan.toNat ≤ 63)
    (hs : (s.ib.judge chan).action = .queue ∨ (s.ib.judge chan).action = .both) (hfull : 12 ≤ s.ib.queue.length) :
    s.deliver tn chan payload = (s, 0x02#8, 0#8) := by
  rw [deliver_of_expected h, if_neg (Nat.not_lt.2 hc), if_pos ((lost_iff _ _).2 ⟨hs, hfull⟩)]

/-- The state after an accepted unicast delivery (R119): the inbound service, the lamps and the flags alone change. -/
def State.delivered (tn : BitVec 3) (chan : Byte) (payload : List Byte) (s : State) : State :=
  let u := s.applyDelivery chan payload (s.ib.judge chan) (s.ib.judge chan).action.queues false
  { s with ib := { u.ib with lastTurn := tn }, lm := u.lm, ia := u.ia }

theorem deliver_of_accepted (h : tn = s.ib.lastTurn + 1) (hc : chan.toNat ≤ 63)
    (hroom : (s.ib.judge chan).action = .queue ∨ (s.ib.judge chan).action = .both → s.ib.queue.length < 12) :
    s.deliver tn chan payload = (s.delivered tn chan payload, 0x00#8, 0#8) := by
  rw [deliver_of_expected h, if_neg (Nat.not_lt.2 hc), if_neg (not_lost hroom), applyDelivery_frame]
  rfl

/-- The step of a unicast DELIVER in JOINED: its RECEIPT is composed last (R120). -/
theorem exec_deliver_of_ready (hs : s.frameReady) (ha : s.awake = true) (hd : s.addressed) (hj : s.link.state = .joined)
    (h16 : payload.length ≤ 16) : exec (.deliver tn chan payload) s = .next (s.heard.serveDeliver tn chan payload) := by
  have hserve : s.heard.dispatch
      { dest := s.link.addr, src := 0, kind := .deliver, av := false, tn := tn, body := chan :: payload } =
      s.heard.serveDeliver tn chan payload := by
    simp [State.dispatch, heard_joined hj, addr_ne_broadcast hd, byteAt]
  simp only [exec, execDeliver]
  rw [frameEvent_unicast hs ha hd (by simp; omega) rfl (by simp [Frame.bodyOk]; omega), hserve]
  exact congrArg _ (endOfStep_replyReceipt ..)

theorem serveDeliver_of_eq {u : State} {code detail : Byte} (h : s.deliver tn chan payload = (u, code, detail)) :
    s.serveDeliver tn chan payload = u.replyReceipt code detail := by rw [State.serveDeliver, h]

/-! ### A broadcast DELIVER (R121) -/

theorem deliverAll_of_channel (hc : 64 ≤ chan.toNat) : s.deliverAll chan payload = s := if_pos hc

/-- A full queue loses the record alone. -/
theorem deliverAll_of_full (hc : chan.toNat ≤ 63)
    (hs : (s.ib.judge chan).action = .queue ∨ (s.ib.judge chan).action = .both) (hfull : 12 ≤ s.ib.queue.length) :
    s.deliverAll chan payload =
      State.applyDelivery chan payload (s.ib.judge chan) false true
        { s with ib.drops := counted s.ib.drops, ia.flags1 := s.ia.flags1 ||| iqDropFlag } :=
  (if_neg (Nat.not_lt.2 hc)).trans (if_pos ((lost_iff _ _).2 ⟨hs, hfull⟩))

theorem deliverAll_of_room (hc : chan.toNat ≤ 63)
    (hroom : (s.ib.judge chan).action = .queue ∨ (s.ib.judge chan).action = .both → s.ib.queue.length < 12) :
    s.deliverAll chan payload =
      s.applyDelivery chan payload (s.ib.judge chan) (s.ib.judge chan).action.queues true :=
  (if_neg (Nat.not_lt.2 hc)).trans (if_neg (not_lost hroom))

end

end Sys2Proof.Machine

namespace Sys2Proof.Proofs

open Sys2Proof.Machine

/-- Settles O33: the first test that fails gives the RECEIPT's code; an accepted delivery is stored, handed to the lamps and
notified block by block. -/
theorem deliver : Obligations.Deliver := by
  intro tn chan payload s hs ha hd hj h16 v stores lamps answer r
  have hstep {u : State} {code detail : Byte} (h : s.heard.deliver tn chan payload = (u, code, detail)) :
      exec (.deliver tn chan payload) s = .next (u.replyReceipt code detail) := by
    rw [exec_deliver_of_ready hs ha hd hj h16, serveDeliver_of_eq h]
  refine ⟨fun h => hstep (deliver_of_repeated h), fun h he => hstep (deliver_of_unexpected h he),
    fun h => ⟨fun hc => hstep (deliver_of_channel h hc), fun hc hq hfull => hstep (deliver_of_full h hc hq hfull),
      fun hc hroom => ⟨s.heard.delivered tn chan payload, hstep (deliver_of_accepted h hc hroom), fun hq => ?_,
        fun hq => ?_, fun hl => ?_, fun hl => ?_, fun i hi => ?_, fun hi => ?_, rfl⟩⟩⟩
  · exact congrArg (fun ib : Inbound => { ib with lastTurn := tn }) (applyDelivery_of_stored hq)
  · exact congrArg (fun ib : Inbound => { ib with lastTurn := tn }) (applyDelivery_of_unstored hq)
  · exact applyDelivery_of_lamps hl
  · exact applyDelivery_of_no_lamps hl
  · exact applyDelivery_of_notify hi
  · exact applyDelivery_of_no_notify hi

/-- Settles O34: a full queue loses the record and counts it; either way the rest is as for any delivery. -/
theorem broadcastDeliver : Obligations.BroadcastDeliver := by
  intro tn chan payload s hs ha hl h16 v stores lamps r
  have hstep : exec (.broadcastDeliver tn chan payload) s = .next (s.heard.deliverAll chan payload).endOfStep := by
    rw [exec_broadcastDeliver_of_ready hs ha tn chan h16, if_pos hl]
  rw [hstep]
  refine ⟨fun hc => by rw [deliverAll_of_channel hc], fun hc => ⟨_, rfl, ?_⟩⟩
  by_cases hlost : stores ∧ 12 ≤ s.ib.queue.length
  · obtain ⟨hq, hfull⟩ := hlost
    rw [deliverAll_of_full (s := s.heard) hc hq hfull]
    refine ⟨fun _ hroom => absurd hfull (Nat.not_le.2 hroom), fun _ _ => applyDelivery_of_lost, fun hno => absurd hq hno,
      applyDelivery_of_lamps, applyDelivery_of_no_lamps, ?_, applyDelivery_frame⟩
    rw [if_pos ⟨hq, hfull⟩]
    exact ⟨fun i => applyDelivery_of_notify, applyDelivery_of_no_notify⟩
  · have hroom (hq : stores) : s.ib.queue.length < 12 := Nat.lt_of_not_le fun hfull => hlost ⟨hq, hfull⟩
    rw [deliverAll_of_room (s := s.heard) hc hroom]
    refine ⟨fun hq _ => applyDelivery_of_stored hq, fun hq hfull => absurd ⟨hq, hfull⟩ hlost, applyDelivery_of_unstored,
      applyDelivery_of_lamps, applyDelivery_of_no_lamps, ?_, applyDelivery_frame⟩
    rw [if_neg hlost]
    exact ⟨fun i => applyDelivery_of_notify, applyDelivery_of_no_notify⟩

end Sys2Proof.Proofs

/-! SUPPORT. One scanner and the lamps that follow its keys: the four-key limit through the stages of a scan, and what a scan, a
tick and a change of geometry keep. -/

namespace Sys2Proof.Machine

/-! ### How many keys are counted (R136) -/

/-- How many keys other than `k` are counted. -/
def Scanner.countedBeside (ks : Scanner) (k : Fin 48) : Nat :=
  ((List.finRange 48).filter (· ≠ k)).countP fun j => (ks.keyState j).isCounted

theorem countedKeys_beside (ks : Scanner) (k : Fin 48) :
    ks.countedKeys = ks.countedBeside k + if (ks.keyState k).isCounted then 1 else 0 := by
  have hsplit : List.Perm (List.finRange 48) (k :: (List.finRange 48).filter (· ≠ k)) := by
    have h := List.perm_cons_erase (List.mem_finRange k)
    rw [(List.nodup_finRange 48).erase_eq_filter] at h
    simpa [bne, beq_eq_decide] using h
  rw [Scanner.countedKeys, hsplit.countP_eq, List.countP_cons]
  rfl

theorem countedBeside_setKey (ks : Scanner) (k : Fin 48) (key : Key) :
    (ks.setKey k key).countedBeside k = ks.countedBeside k := by
  refine List.countP_congr fun j hj => ?_
  have hne : j ≠ k := by simpa using hj
  rw [Scanner.keyState, Scanner.keyState, setKey_other ks k j key hne]

theorem countedKeys_setKey (ks : Scanner) (k : Fin 48) (key : Key) :
    (ks.setKey k key).countedKeys = ks.countedBeside k + if key.state.isCounted then 1 else 0 := by
  rw [countedKeys_beside _ k, countedBeside_setKey, Scanner.keyState, setKey_same]

/-- A key that is not counted, or was counted before, adds nothing. -/
theorem countedKeys_setKey_le {ks : Scanner} {k : Fin 48} {key : Key}
    (h : key.state.isCounted = true → (ks.keyState k).isCounted = true) :
    (ks.setKey k key).countedKeys ≤ ks.countedKeys := by
  rw [countedKeys_setKey, countedKeys_beside ks k]
  split
  · rw [if_pos (h ‹_›)]
  · omega

/-- One key adds one at most. -/
theorem countedKeys_setKey_le_succ (ks : Scanner) (k : Fin 48) (key : Key) :
    (ks.setKey k key).countedKeys ≤ ks.countedKeys + 1 := by
  rw [countedKeys_setKey, countedKeys_beside ks k]
  split <;> omega

theorem countedKeys_of_up {ks : Scanner} (h : ks.keys = Vector.replicate 48 Key.up) : ks.countedKeys = 0 := by
  refine List.countP_eq_zero.2 fun k _ => ?_
  simp [Scanner.keyState, h, Key.up, KeyState.isCounted]

/-! ### The four-key limit through a scan (R137 to R143) -/

/-- At most four keys are counted. -/
def Limited (acc : Stage) : Prop := acc.1.countedKeys ≤ Config.rollover

section
variable {acc : Stage} {k : Fin 48}

theorem Limited.setKey (h : Limited acc) {key : Key} (es : List Event)
    (hk : key.state.isCounted = true → (acc.1.keyState k).isCounted = true) : Limited (acc.1.setKey k key, es) :=
  Nat.le_trans (countedKeys_setKey_le hk) h

theorem releaseKey_limited (flipped : Fin 48 → Bool) (h : Limited acc) : Limited (releaseKey flipped acc k) := by
  unfold releaseKey
  dsimp only
  split
  · exact h.setKey _ nofun
  · exact h

theorem admitKey_limited (h : Limited acc) : Limited (admitKey acc k) := by
  unfold admitKey
  dsimp only
  split
  · exact Nat.le_trans (countedKeys_setKey_le_succ ..) ‹_›
  · exact h.setKey _ nofun

theorem reviewKey_limited (h : Limited acc) : Limited (reviewKey acc k) := by
  unfold reviewKey
  split
  case h_1 | h_2 =>
    split
    · exact h
    · exact admitKey_limited h
  all_goals exact h

theorem pressKey_limited (flipped : Fin 48 → Bool) (h : Limited acc) : Limited (pressKey flipped acc k) := by
  unfold pressKey
  dsimp only
  split
  · split
    · exact h.setKey _ nofun
    · exact admitKey_limited h
  · exact h

theorem timeKey_limited (wasCounted : Fin 48 → Bool) (len : Nat) (h : Limited acc) :
    Limited (timeKey wasCounted len acc k) := by
  have hcounted {st : KeyState} (hst : acc.1.keys[k].state = st) (hc : st.isCounted = true) :
      (acc.1.keyState k).isCounted = true := by rw [Scanner.keyState, hst, hc]
  unfold timeKey
  dsimp only
  split
  case h_1 hst | h_2 hst =>
    split
    · exact h
    · split <;> exact h.setKey _ fun _ => hcounted hst rfl
  all_goals exact h

/-- A stage that keeps the limit at each key keeps it. -/
theorem overKeys_limited {f : Stage → Fin 48 → Stage}
    (hf : ∀ {acc : Stage} {k : Fin 48}, Limited acc → Limited (f acc k)) (h : Limited acc) : Limited (overKeys f acc) :=
  List.foldlRecOn _ f h fun _ hacc _ _ => hf hacc

end

theorem debounceAll_keyState (ks : Scanner) (raw : BitVec 48) (k : Fin 48) :
    (ks.debounceAll raw).keyState k = ks.keyState k := by
  rw [Scanner.keyState, debounceAll_at]; rfl

/-- R136: no scan counts more than four keys. -/
theorem scan_limited {ks : Scanner} (h : ks.countedKeys ≤ Config.rollover) (raw : BitVec 48) (len : Nat) :
    (ks.scan raw len).1.countedKeys ≤ Config.rollover := by
  have h0 : Limited (ks.debounceAll raw, []) := by
    simpa only [Limited, Scanner.countedKeys, debounceAll_keyState] using h
  exact overKeys_limited (timeKey_limited _ len) (overKeys_limited (pressKey_limited _)
    (overKeys_limited reviewKey_limited (overKeys_limited (releaseKey_limited _) h0)))

/-! ### The relations of one scanner (R132, R133, R136) -/

/-- A scanner's own part of the relations of the keys. -/
structure Scanner.Sound (ks : Scanner) : Prop where
  rollover : ks.countedKeys ≤ Config.rollover
  disabled : ks.en = false → ks.keys = Vector.replicate 48 Key.up ∧ ks.due = false
  area : ∀ k : Fin 48, ks.used k = false → ks.keys[k] = Key.up

/-- With every key UP and no scan due, whatever the configuration. -/
theorem scannerSound_of_up {ks : Scanner} (h : ks.keys = Vector.replicate 48 Key.up) (hd : ks.en = false → ks.due = false) :
    ks.Sound where
  rollover := by simp [countedKeys_of_up h]
  disabled he := ⟨h, hd he⟩
  area k _ := by simp [h]

theorem allUp_sound (ks : Scanner) : ks.allUp.Sound := scannerSound_of_up rfl fun _ => rfl

section
variable {ks : Scanner}

/-- A scanner in which a scan is due is enabled. -/
theorem Scanner.Sound.enabled_of_due (h : ks.Sound) (hd : ks.due = true) : ks.en = true := by
  by_contra he
  simp [(h.disabled (by simpa using he)).2] at hd

/-- The scan clock restarts, with no scan due. -/
theorem Scanner.Sound.restartClock (h : ks.Sound) : Scanner.Sound { ks with clock := 0, due := false } :=
  ⟨h.rollover, fun he => ⟨(h.disabled he).1, rfl⟩, h.area⟩

/-- R134: a scanner that is not enabled is not clocked. -/
theorem Scanner.Sound.tick (h : ks.Sound) (p : PowerState) : (ks.tick p).Sound := by
  unfold Scanner.tick
  split
  · rename_i hc
    refine ⟨h.rollover, fun he => ?_, h.area⟩
    exact absurd (hc.symm.trans (clocked_of_disabled p he)) nofun
  · exact h.restartClock

/-- R132, R133: the geometry changes only while every key is UP. -/
theorem Scanner.Sound.setGeometry (h : ks.Sound) {drives senses : BitVec 3}
    (hg : ks.keys = Vector.replicate 48 Key.up ∨ (drives = ks.drives ∧ senses = ks.senses)) :
    Scanner.Sound { ks with drives := drives, senses := senses } := by
  rcases hg with hup | ⟨rfl, rfl⟩
  · exact scannerSound_of_up hup fun he => (h.disabled he).2
  · exact h

end

/-- R132: a scan leaves a key outside the used area UP. -/
theorem scan_unused {s : State} (h : s.ks.Sound) (raw : BitVec 48) {k : Fin 48} (hu : s.ks.used k = false) :
    (s.ks.scan raw s.ks.clock).1.keys[k] = Key.up := by
  have hup := h.area k hu
  have hst : s.ks.keyState k = .up := congrArg Key.state hup
  obtain ⟨hkey, -⟩ := scan_of_up s raw k hst (by simp [Scanner.flips, hu])
  have hdeb : s.ks.nextDeb raw k = s.ks.keys[k].deb := by simp [Scanner.nextDeb, hu]
  rw [hkey, hdeb, hup]

/-- A scan that is due keeps the relations of the scanner. -/
theorem Scanner.Sound.scan {s : State} (h : s.ks.Sound) (hd : s.ks.due = true) (raw : BitVec 48) :
    Scanner.Sound { (s.ks.scan raw s.ks.clock).1 with clock := 0, due := false } := by
  have hset := scan_settings s.ks raw s.ks.clock
  have hlimit := scan_limited h.rollover raw s.ks.clock
  have hunused (k : Fin 48) := scan_unused h raw (k := k)
  generalize (s.ks.scan raw s.ks.clock).1 = x at hset hlimit hunused
  refine ⟨hlimit, fun he => ?_, fun k hk => hunused k ?_⟩
  · rw [hset] at he
    simp [h.enabled_of_due hd] at he
  · rw [hset] at hk
    exact hk

/-! ### Lamps in line with the down set (R172) -/

/-- A lamp in FOLLOW is in line with the down set. -/
def Lamp.InLine (down : BitVec 48) (l : Lamp) : Prop := l.phase.following = true → l.phase = l.followPhase down

section
variable {l : Lamp} {down : BitVec 48}

theorem inLine_of_not_following (h : l.phase.following = false) : l.InLine down := fun hf => by simp [h] at hf

theorem refollow_inLine (l : Lamp) (down : BitVec 48) : (l.refollow down).InLine down := by
  unfold Lamp.refollow
  split
  · exact fun _ => rfl
  · rename_i hf
    exact inLine_of_not_following (by simpa using hf)

/-- R168: FOLLOW enters the phase that the down set gives; no other command leaves a lamp in FOLLOW. -/
theorem run_inLine (l : Lamp) (op : LampOp) (level : BitVec 4) (down : BitVec 48) : (l.run op level down).InLine down := by
  cases op with
  | follow => exact fun _ => rfl
  | off | on | blink => exact inLine_of_not_following rfl
  | pulse =>
    unfold Lamp.run
    dsimp only
    split <;> exact inLine_of_not_following rfl

/-- R171: no phase that ends is followed by a phase of FOLLOW. -/
theorem Lamp.InLine.tick (h : l.InLine down) : l.tick.InLine down := by
  cases hp : l.phase.timed with
  | false => rw [lamp_tick_of_untimed hp]; exact h
  | true =>
    by_cases hr : 2 ≤ l.remaining
    · rw [lamp_tick_of_timed hp hr]; exact h
    · have hends : l.ends = true := by simp [Lamp.ends, hp]; omega
      rw [Lamp.tick, if_pos hends]
      unfold Lamp.nextPhase
      split
      · split <;> exact inLine_of_not_following rfl
      · exact inLine_of_not_following rfl
      · exact inLine_of_not_following rfl
      · exact inLine_of_not_following rfl
      all_goals exact h

end

/-- The lamp engine holds this down set, and every lamp in FOLLOW is in line with it. -/
def Lamps.Follows (down : BitVec 48) (lm : Lamps) : Prop := lm.down = down ∧ ∀ n : Fin 12, lm.lamps[n].InLine down

theorem takeDown_follows (down : BitVec 48) (lm : Lamps) : (lm.takeDown down).Follows down := by
  refine ⟨rfl, fun n => ?_⟩
  rw [takeDown_lamp]
  exact refollow_inLine lm.lamps[n] down

/-- With every lamp OFF. -/
theorem follows_of_off {lm : Lamps} (h : ∀ n : Fin 12, lm.lamps[n].phase = .off) : lm.Follows lm.down :=
  ⟨rfl, fun n => inLine_of_not_following (by rw [h n]; rfl)⟩

section
variable {lm : Lamps} {down : BitVec 48}

/-- One lamp replaced. -/
theorem Lamps.Follows.setLamp (h : lm.Follows down) (n : Fin 12) {l : Lamp} (hl : l.InLine down) :
    (lm.setLamp n l).Follows down := by
  obtain ⟨hd, hlamps⟩ := h
  refine ⟨hd, fun k => ?_⟩
  by_cases hk : n.val = k.val
  · simpa [Lamps.setLamp, hk] using hl
  · simpa [Lamps.setLamp, hk] using hlamps k

theorem Lamps.Follows.run (h : lm.Follows down) (n : Fin 12) (op : LampOp) (level : BitVec 4) :
    (lm.run n op level).Follows down :=
  h.setLamp n (by rw [← h.1]; exact run_inLine _ _ _ _)

theorem Lamps.Follows.deliverOne (h : lm.Follows down) (op : LampOp) (level : BitVec 4) (n : Fin 12) :
    (lm.deliverOne op level n).Follows down := by
  unfold Lamps.deliverOne
  dsimp only
  split
  · exact h.run n op level
  · exact h

/-- R130: a delivered command, for one lamp or for all. -/
theorem Lamps.Follows.deliver (h : lm.Follows down) (c : LampCommand) : (lm.deliver c).Follows down := by
  unfold Lamps.deliver
  split
  · exact h.deliverOne _ _ _
  · exact List.foldlRecOn _ _ h fun _ hacc n _ => hacc.deliverOne c.op c.level n

/-- R129: a payload's commands, one after another. -/
theorem Lamps.Follows.payload : ∀ (bytes : List Byte) {lm : Lamps}, lm.Follows down → (lm.payload bytes).Follows down
  | [], _, h => h
  | [_], _, h => h
  | b :: c :: rest, lm, h => by
    have hdenied : lm.deny.Follows down := h
    rw [Lamps.payload]
    split
    · exact Lamps.Follows.payload rest hdenied
    · exact Lamps.Follows.payload rest (h.deliver _)

theorem Lamps.Follows.tick (h : lm.Follows down) : lm.tick.Follows down := by
  refine ⟨h.1, fun n => ?_⟩
  rw [lamps_tick_getElem]
  exact (h.2 n).tick

end

end Sys2Proof.Machine

/-! SUPPORT. The keys and the lamps that follow them in the machine: every event keeps their relations; and the statement on
every step. -/

namespace Sys2Proof.Machine

/-! ### The relations in the machine -/

/-- The relations of the keys and of the lamps that follow them, block by block. -/
def State.KeysRelations (s : State) : Prop := s.ks.Sound ∧ s.lm.Follows s.ks.downSet

theorem keysRelations_iff (s : State) : s.KeysRelations ↔ s.KeysSound :=
  ⟨fun ⟨⟨hroll, hdis, harea⟩, hd, hl⟩ => ⟨hroll, hdis, harea, hd, fun n => hd ▸ hl n⟩,
    fun h => ⟨⟨h.rollover, h.disabled, h.area⟩, h.down, fun n => h.down ▸ h.follow n⟩⟩

section
variable {s t : State}

theorem State.KeysRelations.ite {p : Prop} [Decidable p] (h : s.KeysRelations) (h' : t.KeysRelations) :
    (if p then s else t).KeysRelations := by split <;> assumption

/-- The lamps replaced by lamps that follow the same keys. -/
theorem State.KeysRelations.setLamps (h : s.KeysRelations) {lm : Lamps} (hl : lm.Follows s.ks.downSet) :
    State.KeysRelations { s with lm := lm } := ⟨h.1, hl⟩

/-- The writer's selected lamp replaced. -/
theorem State.KeysRelations.updLamp (h : s.KeysRelations) (m : Master) {f : Lamp → Lamp}
    (hf : (s.selLamp m).InLine s.ks.downSet → (f (s.selLamp m)).InLine s.ks.downSet) : (s.updLamp m f).KeysRelations := by
  obtain ⟨hk, hl⟩ := h
  exact ⟨hk, hl.setLamp _ (hf (hl.2 _))⟩

/-- The scanner replaced by one with the same keys. -/
theorem State.KeysRelations.setScanner (h : s.KeysRelations) {ks : Scanner} (hk : ks.keys = s.ks.keys) (hs : ks.Sound) :
    State.KeysRelations { s with ks := ks } := by
  have hd : ks.downSet = s.ks.downSet := by unfold Scanner.downSet Scanner.keyState; rw [hk]
  obtain ⟨-, hl⟩ := h
  exact ⟨hs, by rw [hd]; exact hl⟩

/-- The scanner's timing replaced. -/
theorem State.KeysRelations.configure (h : s.KeysRelations) {ks : Scanner} (hk : ks.keys = s.ks.keys) (he : ks.en = s.ks.en)
    (hd : ks.due = s.ks.due) (hu : ks.used = s.ks.used) : State.KeysRelations { s with ks := ks } := by
  obtain ⟨hroll, hdis, harea⟩ := h.1
  refine h.setScanner hk ⟨?_, ?_, ?_⟩
  · unfold Scanner.countedKeys Scanner.keyState at hroll ⊢
    rwa [hk]
  · rwa [hk, he, hd]
  · simpa only [hu, hk] using harea

/-! ### Records, sleep and waking -/

theorem State.KeysRelations.recordAll (h : s.KeysRelations) (es : List Event) : (s.recordAll es).KeysRelations := by
  rw [recordAll_eq]
  exact h

/-- R145: every key is UP, and the lamps take over the empty down set. -/
theorem forcedRelease_keysRelations (s : State) : s.forcedRelease.KeysRelations := by
  rw [forcedRelease_eq]
  exact ⟨allUp_sound _, takeDown_follows _ _⟩

theorem State.KeysRelations.requestWake (h : s.KeysRelations) (c : WakeCause) (detail : Byte) :
    (s.requestWake c detail).KeysRelations := .ite (h.setScanner rfl h.1.restartClock) h

theorem State.KeysRelations.enterSleep (h : s.KeysRelations) : s.enterSleep.KeysRelations :=
  .ite (forcedRelease_keysRelations _) h

theorem State.KeysRelations.finishWake (h : s.KeysRelations) : s.finishWake.KeysRelations := by
  rw [finishWake_eq]
  exact h.setScanner rfl h.1.restartClock

/-- R144, R172: a scan hands its counted keys to the lamps; a wake scan leaves the keys alone. -/
theorem State.KeysRelations.completeScan (h : s.KeysRelations) (hd : s.ks.due = true) (keys : BitVec 48) :
    (s.completeScan keys).KeysRelations := by
  by_cases hw : s.pr.state = .waking
  · rw [State.completeScan, hw]
    exact h
  · rcases awake_or_sleep hw with ha | hs
    · rw [scan_exec keys s ha]
      refine ⟨h.1.scan hd keys, ?_⟩
      dsimp only
      rw [downSet_clock]
      exact takeDown_follows _ _
    · rw [completeScan_sleep keys hs]
      exact h.setScanner rfl h.1.restartClock

/-! ### Link transitions (R41 to R48) -/

theorem State.KeysRelations.returnToSource (h : s.KeysRelations) : s.returnToSource.KeysRelations := by
  rw [returnToSource_eq]
  exact h

theorem State.KeysRelations.hush (h : s.KeysRelations) (d : Half) : (s.hush d).KeysRelations := by
  unfold State.hush
  split
  · exact h.returnToSource
  all_goals exact h

theorem State.KeysRelations.writeLinkCtl (h : s.KeysRelations) (v : Byte) : (s.writeLinkCtl v).KeysRelations := by
  refine .ite h (.ite ?_ h)
  rw [disableLink_eq _ _ rfl rfl]
  exact h

/-! ### The tick -/

theorem State.KeysRelations.tickWatchdog (h : s.KeysRelations) : s.tickWatchdog.KeysRelations :=
  .ite h.returnToSource (.ite h h)

theorem State.KeysRelations.tickQuiet (h : s.KeysRelations) : s.tickQuiet.KeysRelations := by
  refine .ite h ?_
  split
  · exact .ite h h
  all_goals exact h

theorem State.KeysRelations.tickRefresh (h : s.KeysRelations) : s.tickRefresh.KeysRelations := .ite (.ite h h) h

/-- R170: every lamp's timer. -/
theorem State.KeysRelations.tickLamps (h : s.KeysRelations) : s.tickLamps.KeysRelations :=
  .ite ((h.setLamps h.2.tick).recordAll _) h

/-- R134: the scan clock. -/
theorem State.KeysRelations.tickScan (h : s.KeysRelations) : s.tickScan.KeysRelations :=
  h.setScanner (ks := s.ks.tick s.pr.state) (by unfold Scanner.tick; split <;> rfl) (h.1.tick _)

theorem State.KeysRelations.tickSense (h : s.KeysRelations) (sns : BitVec 4) : (s.tickSense sns).KeysRelations := by
  have hsampled : State.KeysRelations { s with st := s.st.sampleAll sns } := h
  unfold State.tickSense
  split
  case h_4 =>
    split
    · exact h.requestWake _ _
    · exact h
  case h_5 => exact h
  all_goals exact hsampled.recordAll _

theorem State.KeysRelations.tick (h : s.KeysRelations) (sns : BitVec 4) : (s.tick sns).KeysRelations := by
  have htime : s.tickTime.KeysRelations := h
  exact htime.tickWatchdog.tickQuiet.tickRefresh.tickLamps.tickScan.tickSense sns

/-! ### POLL and DELIVER -/

theorem State.KeysRelations.pollAcknowledge (h : s.KeysRelations) {av : Bool} {tn : BitVec 3} :
    (s.pollAcknowledge av tn).KeysRelations := by
  unfold State.pollAcknowledge State.acknowledge
  repeat' split
  all_goals exact h

theorem State.KeysRelations.pollUnacknowledged (h : s.KeysRelations) : s.pollUnacknowledged.KeysRelations := by
  unfold State.pollUnacknowledged State.withdraw State.dropItem
  repeat' split
  all_goals exact h

theorem State.KeysRelations.pollSelect (h : s.KeysRelations) : s.pollSelect.KeysRelations := by
  unfold State.pollSelect State.composeItem
  repeat' split
  all_goals exact h

theorem State.KeysRelations.servePoll (h : s.KeysRelations) (av : Bool) (tn : BitVec 3) :
    (s.servePoll av tn).KeysRelations := by
  have h1 : (s.pollStages av tn).KeysRelations := h.pollAcknowledge.pollUnacknowledged.pollSelect
  unfold State.servePoll State.replyPoll
  split <;> exact h1

/-- R129: the lamps carry out the payload. -/
theorem State.KeysRelations.applyDelivery (h : s.KeysRelations) (chan : Byte) (payload : List Byte) (v : Verdict)
    (stores broadcast : Bool) : (s.applyDelivery chan payload v stores broadcast).KeysRelations := by
  rw [applyDelivery_eq]
  refine h.setLamps ?_
  split
  · exact h.2.payload payload
  · exact h.2

theorem State.KeysRelations.serveDeliver (h : s.KeysRelations) (tn : BitVec 3) (chan : Byte) (payload : List Byte) :
    (s.serveDeliver tn chan payload).KeysRelations := by
  show (s.deliver tn chan payload).1.KeysRelations
  unfold State.deliver
  dsimp only
  repeat' split
  case isFalse.isFalse.isFalse.isFalse => exact h.applyDelivery ..
  all_goals exact h

theorem State.KeysRelations.deliverAll (h : s.KeysRelations) (chan : Byte) (payload : List Byte) :
    (s.deliverAll chan payload).KeysRelations := by
  have hdropped : State.KeysRelations (State.raise1 iqDropFlag { s with ib.drops := counted s.ib.drops }) := h
  unfold State.deliverAll
  dsimp only
  split
  · exact h
  · split
    · exact hdropped.applyDelivery ..
    · exact h.applyDelivery ..

/-! ### Register writes -/

theorem softRestart_keysRelations (s : State) : s.softRestart.KeysRelations := by
  have hoff (n : Fin 12) : s.lm.restart.lamps[n].phase = .off := by simp [Lamps.restart, Lamp.restart]
  have hdown : s.lm.restart.down = s.ks.restart.downSet := (allUp_downSet s.ks).symm
  exact ⟨allUp_sound s.ks, hdown ▸ follows_of_off hoff⟩

theorem powerOnReset_keysRelations (p : Straps) (s : State) : (s.powerOnReset p).KeysRelations := by
  have hoff (n : Fin 12) : Lamps.powerOn.lamps[n].phase = .off := by simp [Lamps.powerOn, Lamp.powerOn]
  have hdown : Lamps.powerOn.down = Scanner.powerOn.downSet := (allUp_downSet Scanner.powerOn).symm
  exact ⟨allUp_sound Scanner.powerOn, hdown ▸ follows_of_off hoff⟩

/-- R133, R145: SCANCTL starts the scanner with every key UP, stops it with a forced release, or leaves EN as it is. -/
theorem State.KeysRelations.writeScanCtl (h : s.KeysRelations) (v : Byte) : (s.writeScanCtl v).KeysRelations := by
  have hsame : State.KeysRelations { s with ks.sleepWake := v.getLsbD 1 } := h.configure rfl rfl rfl rfl
  cases he : s.ks.en <;> cases hv : v.getLsbD 0
  · rw [writeScanCtl_of_same (by rw [hv, he])]
    exact hsame
  · rw [writeScanCtl_of_enable hv he]
    obtain ⟨hup, -⟩ := h.1.disabled he
    exact h.setScanner hup.symm (scannerSound_of_up rfl nofun)
  · rw [writeScanCtl_of_disable hv he, ← allUp_downSet s.ks]
    exact ⟨scannerSound_of_up rfl fun _ => rfl, takeDown_follows _ _⟩
  · rw [writeScanCtl_of_same (by rw [hv, he])]
    exact hsame

/-- The geometry of `ks` can be written only with what it holds, or while every key is UP: it is that of `ref`, which is enabled
(R20), or every key is UP. -/
def Scanner.Guarded (ref ks : Scanner) : Prop :=
  ks.keys = Vector.replicate 48 Key.up ∨ (ref.en = true ∧ ks.drives = ref.drives ∧ ks.senses = ref.senses)

/-- R133: a scanner guards its own geometry. -/
theorem Scanner.Sound.guarded {ks : Scanner} (h : ks.Sound) : ks.Guarded ks := by
  cases he : ks.en with
  | false => exact .inl (h.disabled he).1
  | true => exact .inr ⟨he, rfl, rfl⟩

/-- R19, R20: a write of MATRIX that passes the access check leaves a guarded geometry, or finds every key UP. -/
theorem Scanner.Guarded.matrix {judge : State} (hg : judge.ks.Guarded s.ks) {m : Master} {v : Byte}
    (hc : judge.check m .matrix v = none) : s.ks.keys = Vector.replicate 48 Key.up ∨
      (v.extractLsb' 4 3 = s.ks.drives ∧ v.extractLsb' 0 3 = s.ks.senses) := by
  refine hg.imp_right fun ⟨he, hd, hs⟩ => ?_
  have hb : judge.busy m .matrix v = false := not_busy_of_check hc
  rw [hd, hs]
  simpa [State.busy, he] using hb

/-- A write by either master that a part with the same guarded geometry lets pass. -/
theorem State.KeysRelations.applyWrite (h : s.KeysRelations) {judge : State} (hg : judge.ks.Guarded s.ks) {m : Master} {r : Reg}
    {v : Byte} (hc : judge.check m r v = none) : (s.applyWrite m r v).KeysRelations := by
  cases r
  case restart =>
    cases m with
    | host => exact softRestart_keysRelations s
    | head => exact h
  case linkCtl => exact h.writeLinkCtl v
  case scanCtl => exact h.writeScanCtl v
  case matrix => exact h.setScanner rfl (h.1.setGeometry (hg.matrix hc))
  case scanPeriod | debounce | longTime | rept => exact h.configure rfl rfl rfl rfl
  case lgo => exact h.setLamps (h.2.run _ _ _)
  case lbind =>
    rw [State.applyWrite, h.2.1]
    exact h.updLamp m fun _ => refollow_inLine _ _
  case lon | loff | lcount | ldelay | lwidth | lcfg => exact h.updLamp m id
  case localTime i => simp only [State.applyWrite, State.writeLocalTime]; split <;> cases m <;> exact h
  case mbCmd => exact .ite h (.ite h h)
  case iflags0 => exact .ite h h
  all_goals cases m <;> exact h

/-! ### POKE: each byte judged against the state before it (R61) -/

theorem writeLinkCtl_ks (v : Byte) (s : State) : (s.writeLinkCtl v).ks = s.ks := by
  unfold State.writeLinkCtl
  dsimp only
  rw [disableLink_eq _ _ rfl rfl]
  repeat' split
  all_goals rfl

theorem Scanner.Guarded.writeScanCtl {ref : Scanner} (hg : ref.Guarded s.ks) (v : Byte) :
    ref.Guarded (s.writeScanCtl v).ks := by
  cases he : s.ks.en <;> cases hv : v.getLsbD 0
  · rw [writeScanCtl_of_same (by rw [hv, he])]
    exact hg
  · rw [writeScanCtl_of_enable hv he]
    exact .inl rfl
  · rw [writeScanCtl_of_disable hv he]
    exact .inl rfl
  · rw [writeScanCtl_of_same (by rw [hv, he])]
    exact hg

/-- R20: no byte of a POKE unguards the geometry for the bytes after it. -/
theorem Scanner.Guarded.applyWrite {judge : State} (hg : judge.ks.Guarded s.ks) {r : Reg} {v : Byte}
    (hc : judge.check .head r v = none) : judge.ks.Guarded (s.applyWrite .head r v).ks := by
  cases r
  case linkCtl =>
    rw [State.applyWrite, writeLinkCtl_ks]
    exact hg
  case scanCtl => exact hg.writeScanCtl v
  case matrix =>
    rcases hg with hup | ⟨he, hd, hs⟩
    · exact .inl hup
    · have hm := Scanner.Guarded.matrix (s := s) (.inr ⟨he, hd, hs⟩) hc
      exact hm.imp_right fun ⟨hd', hs'⟩ => ⟨he, hd'.trans hd, hs'.trans hs⟩
  case localTime i => simp only [State.applyWrite, State.writeLocalTime]; split <;> exact hg
  case mbCmd => simp only [State.applyWrite, State.writeMbCmd]; (repeat' split) <;> exact hg
  case iflags0 => simp only [State.applyWrite, State.clearFlags0]; split <;> exact hg
  all_goals exact hg

/-- A selector byte chosen in advance leaves the scanner as it is. -/
theorem preselect_ks (r : Reg) (v : Byte) (s : State) : (s.preselect r v).ks = s.ks := by cases r <;> rfl

/-- R62: the bytes of a POKE that the access check lets pass. -/
theorem State.KeysRelations.writeSpan (h : s.KeysRelations) (data : List Byte) (addr : Byte) (judge : State)
    (hg : judge.ks.Guarded s.ks) (hj : judge.firstRefusal addr data = none) : (s.writeSpan addr data).KeysRelations := by
  induction data generalizing addr judge s with
  | nil => exact h
  | cons v rest ih =>
    rw [State.firstRefusal] at hj
    cases hc : judge.check .head (regAt addr) v with
    | some c => simp [hc] at hj
    | none =>
      rw [hc] at hj
      exact ih (h.applyWrite hg hc) _ _ (by rw [preselect_ks]; exact hg.applyWrite hc) hj

theorem State.KeysRelations.servePoke (h : s.KeysRelations) (addr : Byte) (data : List Byte) :
    (s.servePoke addr data).KeysRelations := by
  unfold State.servePoke
  split
  · exact h
  split
  · exact h
  · rename_i hj
    have hw := h.writeSpan data addr s h.1.guarded hj
    exact .ite hw hw

/-! ### Every frame -/

theorem State.KeysRelations.dispatch (h : s.KeysRelations) (f : Frame) : (s.dispatch f).KeysRelations := by
  unfold State.dispatch
  cases f.kind with
  | rollcall => exact .ite (.ite (.ite h.returnToSource h) h) (.ite (.ite h.returnToSource h.returnToSource) h)
  | poll => exact .ite (h.servePoll ..) h
  | deliver => exact .ite (.ite (h.deliverAll ..) h) (.ite (h.serveDeliver ..) h)
  | peek =>
    have h1 : (s.captureSpan (byteAt f.body 0) (byteAt f.body 1).toNat).KeysRelations := by rw [captureSpan_eq]; exact h
    exact .ite (.ite h h1) h
  | poke => exact .ite (h.servePoke ..) h
  | hush => exact h.hush _
  | beacon => exact .ite h h
  | hello | answer | nothing | receipt | regval => exact h

theorem State.KeysRelations.processFrame (h : s.KeysRelations) (c : FrameClass) : (s.processFrame c).KeysRelations := by
  cases c with
  | valid f => exact .ite (State.KeysRelations.dispatch (s := s.hearHead) h f) (.ite h.returnToSource h)
  | badFormat | badCrc | unknownKind | misdirected => exact h

theorem State.KeysRelations.completeFrame (h : s.KeysRelations) (bytes : List RxByte) :
    (s.completeFrame bytes).KeysRelations := by
  have h1 : State.KeysRelations { s with link.rx := Receiver.completed } := h
  unfold State.completeFrame
  dsimp only
  split
  · exact .ite (h1.requestWake .link 0) h1
  · exact h1
  all_goals exact h1.processFrame _

/-! ### SPI bytes -/

theorem State.KeysRelations.loadOut (h : s.KeysRelations) : s.loadOut.KeysRelations := by rw [loadOut_eq]; exact h

theorem State.KeysRelations.advance (h : s.KeysRelations) : s.advance.KeysRelations := .ite h h

theorem State.KeysRelations.fetch (h : s.KeysRelations) : s.fetch.KeysRelations := by rw [fetch_eq]; exact h

theorem State.KeysRelations.commandByte (h : s.KeysRelations) (b : Byte) : (s.commandByte b).KeysRelations := by
  have h1 (c : HostCommand) (p : Phase) : (s.setCommand c p).KeysRelations := h
  rw [commandByte_eq]
  exact State.KeysRelations.loadOut (.ite ((h1 _ _).requestWake .host 0) (h1 _ _))

theorem State.KeysRelations.readByte (h : s.KeysRelations) : s.readByte.KeysRelations := by
  have h1 : s.settleCapture.KeysRelations := by rw [settleCapture_eq]; exact h
  exact .ite h1.advance.fetch h1.advance.loadOut

/-- R6, R21: a write by the host, refused or carried out. -/
theorem State.KeysRelations.hostWriteByte (h : s.KeysRelations) (v : Byte) : (s.hostWriteByte v).KeysRelations := by
  unfold State.hostWriteByte
  dsimp only
  split
  · refine State.KeysRelations.loadOut (State.KeysRelations.advance ?_)
    rw [captureRefusal_eq]
    exact h
  · rename_i hc
    have hw := h.applyWrite h.1.guarded hc
    exact .ite hw hw.advance.loadOut

/-! ### Every event and every command -/

theorem State.KeysRelations.cancelPending (h : s.KeysRelations) : s.cancelPending.KeysRelations := .ite h h

theorem State.KeysRelations.startReply (h : s.KeysRelations) : s.startReply.KeysRelations := by
  unfold State.startReply; split <;> exact h

/-- Every event that can fall due keeps the relations of the keys. -/
theorem IsEvent.keysRelations {due : State → Bool} {f : State → State} (e : IsEvent due f) (h : s.KeysRelations)
    (hd : due s = true) : (f s).KeysRelations := by
  cases e with
  | restart => exact softRestart_keysRelations s
  | wakeEnd => exact h.finishWake
  | scan hdue keys => exact h.completeScan (hdue s hd) keys
  | tick _ sns => exact h.tick sns
  | sleepEntry => exact h.enterSleep
  | frame bytes => exact h.completeFrame (bytes s)
  | frameStart | discardedByte => exact h.cancelPending
  | replyStart => exact h.startReply
  | commandByte b => exact h.commandByte b
  | addressByte b => exact State.KeysRelations.loadOut h
  | turnaround => exact State.KeysRelations.fetch h
  | readData => exact h.readByte
  | statusStream | ignoredByte => exact h.loadOut
  | hostWrite _ v => exact h.hostWriteByte v
  | hunting | replyEnd | replyAbort | replyCancel | csnRise | csnFall | csnWhileHeld => exact h

theorem State.Reaches.keysRelations (hr : s.Reaches t) (h : s.KeysRelations) : t.KeysRelations := by
  induction hr with
  | refl => exact h
  | tail _ hstep ih =>
    obtain ⟨due, f, e, hd, rfl⟩ := hstep
    exact e.keysRelations ih hd

/-- Every command keeps the relations of the keys. -/
theorem exec_keysRelations {c : Instr} (h : s.KeysRelations) (he : exec c s = .next t) : t.KeysRelations := by
  cases hr : ofReset c with
  | false =>
    obtain ⟨u, hu, hreach⟩ := exec_reaches c s hr
    obtain rfl : u = t := by simpa [hu] using he
    exact hreach.keysRelations h
  | true =>
    match c, hr with
    | .powerOnReset p, _ | .pinReset p, _ =>
      cases he
      exact .ite h (powerOnReset_keysRelations p _)
    | .resetHeldLow, _ | .supplyBelowRange, _ =>
      cases he
      exact h

end

end Sys2Proof.Machine

namespace Sys2Proof.Proofs

open Sys2Proof.Machine

/-- Settles O58: the scan admits a fourth key at most, MATRIX changes only while every key is UP, and every event that changes
the counted keys hands them to the lamps. -/
theorem stepKeepsKeys : Obligations.StepKeepsKeys := fun s t hs h =>
  (keysRelations_iff t).1 (step_keeps (P := State.KeysRelations) (fun _ _ hq => hq) (fun _ _ _ => exec_keysRelations)
    ((keysRelations_iff s).2 hs) h)

end Sys2Proof.Proofs

/-! SUPPORT. One key through a whole scan: released, pressed, waiting, or held. -/

namespace Sys2Proof.Machine

/-! ### The step of a scan under any of its names (R137) -/

/-- The step of a row inside a scan, where what it names comes about. -/
theorem exec_scanRow {c : Instr} {due : State → Bool} {keys : BitVec 48} {s : State} (h : s.ScanReady) (ha : s.awake = true)
    (hc : exec c s = .next (scanEvent due keys s)) (hd : due s = true) :
    exec c s = .next (s.completeScan keys).endOfStep := by
  rw [hc, scanEvent_of_due h.running h.restart (oscillatorDue_of_awake ha) hd]

theorem ScanReady.scanDue {s : State} (h : s.ScanReady) (ha : s.awake = true) : s.scanDue = true := by
  simp [State.scanDue, h.due, ha]

theorem completeScan_key (keys : BitVec 48) {s : State} (ha : s.awake = true) (k : Fin 48) :
    (s.completeScan keys).ks.keys[k] = (s.ks.scan keys s.ks.clock).1.keys[k] := by rw [scan_exec keys s ha]

theorem completeScan_jr (keys : BitVec 48) {s : State} (ha : s.awake = true) :
    (s.completeScan keys).jr = (s.recordAll (s.ks.scan keys s.ks.clock).2).jr := by rw [scan_exec keys s ha]

/-! ### Debounce (R135) -/

theorem pressed_of_ne_up {st : KeyState} (h : st ≠ .up) : st.pressed = true := by cases st <;> trivial

section
variable {ks : Scanner} {raw : BitVec 48} {k : Fin 48}

/-- R135: a used key whose reading differs from its level flips at the DEBOUNCE-th such reading in a row. -/
theorem flips_of_reading {level : Bool} (hu : ks.used k = true) (hr : raw.getLsbD k.val = level)
    (hp : (ks.keyState k).pressed = !level) (hd : ks.debounce.toNat ≤ ks.keys[k].deb + 1) : ks.flips raw k = true := by
  cases level <;> simp_all [Scanner.flips]

/-- The tests of a key that stays UP: a released reading clears its debounce counter, a pressed one raises it (R135). -/
theorem nextDeb_of_up (hs : ks.keyState k = .up) (hu : ks.used k = true)
    (hd : raw.getLsbD k.val = true → ks.keys[k].deb + 1 < ks.debounce.toNat) :
    ks.nextDeb raw k = (if raw.getLsbD k.val then ks.keys[k].deb + 1 else 0) ∧ ks.flips raw k = false := by
  have hf : ks.flips raw k = false := by
    cases hr : raw.getLsbD k.val with
    | false =>
      rw [Scanner.flips, hs, hr]
      simp [KeyState.pressed]
    | true => rw [Scanner.flips, decide_eq_false (Nat.not_le.2 (hd hr)), Bool.and_false]
  refine ⟨?_, hf⟩
  rw [Scanner.nextDeb, hu, hs, hf]
  cases raw.getLsbD k.val <;> rfl

/-- A record about the key itself is the last of those about it. -/
theorem eventsAbout_append_keyEvent (es : List Event) (kind : JKind) (k : Fin 48) (detail : Byte) :
    eventsAbout k (es ++ [keyEvent kind k detail]) = eventsAbout k es ++ [keyEvent kind k detail] := by
  simp [eventsAbout, keyEvent]

/-! ### Stage by stage -/

/-- The key after the readings. -/
def Scanner.debounced (ks : Scanner) (raw : BitVec 48) (k : Fin 48) : Key := { ks.keys[k] with deb := ks.nextDeb raw k }

theorem debounced_hold (ks : Scanner) (raw : BitVec 48) (k : Fin 48) : (ks.debounced raw k).hold = ks.keys[k].hold := rfl

theorem debounced_rept (ks : Scanner) (raw : BitVec 48) (k : Fin 48) : (ks.debounced raw k).rept = ks.keys[k].rept := rfl

theorem debounced_ordinal (ks : Scanner) (raw : BitVec 48) (k : Fin 48) :
    (ks.debounced raw k).ordinal = ks.keys[k].ordinal := rfl

/-- Stage 1 leaves a key whose release is not accepted. -/
theorem afterRelease_of_kept (h : ks.flips raw k = false ∨ ks.keyState k = .up) :
    (afterRelease ks raw).1.keys[k] = ks.debounced raw k ∧ eventsAbout k (afterRelease ks raw).2 = [] := by
  have hn : (ks.flips raw k && (ks.keyState k).pressed) = false := by rcases h with h | h <;> simp [h, KeyState.pressed]
  obtain ⟨hkey, hev⟩ := afterRelease_at ks raw k
  rw [hn] at hkey hev
  exact ⟨hkey, hev⟩

/-- A key that does not wait is not reviewed (R140). -/
theorem reviewKey_of_settled {acc : Stage} (h : acc.1.keyState k ≠ .suspect) (h' : acc.1.keyState k ≠ .blocked) :
    reviewKey acc k = acc := by
  unfold reviewKey
  split
  · contradiction
  · contradiction
  all_goals rfl

/-- A key that waits is admitted unless it completes a rectangle (R140). -/
theorem reviewKey_of_waiting {acc : Stage} (h : acc.1.keyState k = .suspect ∨ acc.1.keyState k = .blocked) :
    reviewKey acc k = if acc.1.completesRectangle k then acc else admitKey acc k := by
  unfold reviewKey
  rcases h with h | h <;> rw [h]

/-- A press that is accepted makes the key SUSPECT if it completes a rectangle, and is admitted otherwise (R141). -/
theorem pressKey_of_flipped {flipped : Fin 48 → Bool} {acc : Stage} (hf : flipped k = true)
    (hs : acc.1.keys[k].state = .up) : pressKey flipped acc k =
      if acc.1.completesRectangle k then
        (acc.1.setKey k (acc.1.keys[k].fresh .suspect), acc.2 ++ [keyEvent .ghost k 0])
      else admitKey acc k := if_pos (by simpa [hf] using hs)

/-- Stage 2 leaves a key that does not wait. -/
theorem afterReview_of_settled (hk : ks.flips raw k = false ∨ ks.keyState k = .up) (h : ks.keyState k ≠ .suspect)
    (h' : ks.keyState k ≠ .blocked) :
    (afterReview ks raw).1.keys[k] = ks.debounced raw k ∧ eventsAbout k (afterReview ks raw).2 = [] := by
  obtain ⟨hkey1, hev1⟩ := afterRelease_of_kept hk
  obtain ⟨pre, -, hkey, hev, hpre, hpreEv⟩ := afterReview_at ks raw k
  have hst : pre.1.keyState k = ks.keyState k := by rw [Scanner.keyState, hpre, hkey1]; rfl
  rw [reviewKey_of_settled (by rwa [hst]) (by rwa [hst])] at hkey hev
  exact ⟨hkey.trans (hpre.trans hkey1), hev.trans (hpreEv.trans hev1)⟩

/-! ### A release (R138) -/

/-- A release that is accepted returns the key to UP, with the record that its state asks for. -/
theorem scan_of_release (len : Nat) (hf : ks.flips raw k = true) (hp : (ks.keyState k).pressed = true) :
    (ks.scan raw len).1.keys[k] = { state := .up, deb := 0, hold := 0, rept := 0, ordinal := 0 } ∧
      eventsAbout k (ks.scan raw len).2 = releaseEvents k (ks.keyState k) := by
  obtain ⟨hkey, hev⟩ := afterRelease_at ks raw k
  rw [hf, hp, nextDeb_flip ks raw k hf] at hkey
  rw [hf, hp] at hev
  obtain ⟨hkey', hev'⟩ := later_up ks raw len k 0 hkey (by simp [hp])
  exact ⟨hkey', hev'.trans hev⟩

/-! ### A key that is judged (R139 to R141) -/

/-- What the judgement of key `k` against the states of `x` chooses: the first if the key completes a rectangle, else the second
if fewer than four keys are counted, else the third. -/
def Scanner.judged {α : Type} (x : Scanner) (k : Fin 48) (ghost admitted blocked : α) : α :=
  if x.completesRectangle k then ghost else if x.countedKeys < 4 then admitted else blocked

theorem judged_of_rectangle {α : Type} {x : Scanner} {k : Fin 48} (h : x.completesRectangle k = true)
    (ghost admitted blocked : α) : x.judged k ghost admitted blocked = ghost := if_pos h

/-- The three outcomes of a judgement, for the key and its records. -/
theorem judged_cases {x : Scanner} {k : Fin 48} {key ghost admitted blocked : Key} {es es1 es2 es3 : List Event}
    (hkey : key = x.judged k ghost admitted blocked) (hes : es = x.judged k es1 es2 es3) :
    (x.completesRectangle k = true → key = ghost ∧ es = es1) ∧
      (¬x.completesRectangle k = true → x.countedKeys < 4 → key = admitted ∧ es = es2) ∧
      (¬x.completesRectangle k = true → 4 ≤ x.countedKeys → key = blocked ∧ es = es3) := by
  unfold Scanner.judged at hkey hes
  refine ⟨fun hx => ?_, fun hx hc => ?_, fun hx hc => ?_⟩
  · rw [if_pos hx] at hkey hes
    exact ⟨hkey, hes⟩
  · rw [if_neg hx, if_pos hc] at hkey hes
    exact ⟨hkey, hes⟩
  · rw [if_neg hx, if_neg (Nat.not_lt.2 hc)] at hkey hes
    exact ⟨hkey, hes⟩

/-- Admission after a key was found free of rectangles (R140, R141). -/
theorem admitKey_judged {acc : Stage} {key : Key} (hkey : acc.1.keys[k] = key) (hnone : eventsAbout k acc.2 = [])
    (hx : ¬acc.1.completesRectangle k = true) (ghost : Key) (es : List Event) :
    (admitKey acc k).1.keys[k] = acc.1.judged k ghost (key.fresh .down) (key.fresh .blocked) ∧
      eventsAbout k (admitKey acc k).2 = acc.1.judged k es [keyEvent .keyDown k 0] [] := by
  obtain ⟨hadmit, hadmitEv⟩ := admitKey_at acc k
  rw [hadmit, hadmitEv, hnone, hkey, Scanner.judged, if_neg hx, Scanner.judged, if_neg hx]
  exact ⟨rfl, rfl⟩

/-- A press that is accepted, judged against the states that the scan has left when it reaches the key. -/
theorem scan_of_press (len : Nat) (hf : ks.flips raw k = true) (hup : ks.keyState k = .up) :
    (ks.scan raw len).1.keys[k] = (ks.reachingPress raw k).judged k ((ks.debounced raw k).fresh .suspect)
        ((ks.debounced raw k).fresh .down) ((ks.debounced raw k).fresh .blocked) ∧
      eventsAbout k (ks.scan raw len).2 =
        (ks.reachingPress raw k).judged k [keyEvent .ghost k 0] [keyEvent .keyDown k 0] [] := by
  obtain ⟨hkey2, hev2⟩ := afterReview_of_settled (raw := raw) (.inr hup) (by simp [hup]) (by simp [hup])
  obtain ⟨pre, hx, hkey, hev, hpre, hpreEv⟩ := afterPress_at ks raw k
  obtain ⟨hkey4, hev4⟩ := scan_skip ks raw len k (by rw [hup]; rfl)
  have hdeb : pre.1.keys[k] = ks.debounced raw k := hpre.trans hkey2
  have hnone : eventsAbout k pre.2 = [] := hpreEv.trans hev2
  rw [pressKey_of_flipped (by simp [hf, hup, KeyState.pressed]) (by rw [hdeb]; exact hup), hdeb] at hkey hev
  rw [hkey4, hev4, hkey, hev, ← hx]
  split
  · rename_i hr
    rw [judged_of_rectangle hr, judged_of_rectangle hr]
    exact ⟨setKey_same _ _ _, by rw [eventsAbout_append_keyEvent, hnone]; rfl⟩
  · exact admitKey_judged hdeb hnone ‹_› _ _

/-- A key that waits and is not released, judged against the states that the scan has left when it reaches the key. -/
theorem scan_of_waiting (len : Nat) (hf : ks.flips raw k = false)
    (hw : ks.keyState k = .suspect ∨ ks.keyState k = .blocked) :
    (ks.scan raw len).1.keys[k] = (ks.reachingReview raw k).judged k (ks.debounced raw k)
        ((ks.debounced raw k).fresh .down) ((ks.debounced raw k).fresh .blocked) ∧
      eventsAbout k (ks.scan raw len).2 = (ks.reachingReview raw k).judged k [] [keyEvent .keyDown k 0] [] := by
  obtain ⟨hkey1, hev1⟩ := afterRelease_of_kept (.inl hf)
  obtain ⟨pre, hx, hkey, hev, hpre, hpreEv⟩ := afterReview_at ks raw k
  obtain ⟨hkey3, hev3⟩ := afterPress_skip ks raw k (by simp [hf])
  obtain ⟨hkey4, hev4⟩ := scan_skip ks raw len k (by rcases hw with h | h <;> rw [h] <;> rfl)
  have hdeb : pre.1.keys[k] = ks.debounced raw k := hpre.trans hkey1
  have hnone : eventsAbout k pre.2 = [] := hpreEv.trans hev1
  rw [reviewKey_of_waiting (by rw [Scanner.keyState, hdeb]; exact hw)] at hkey hev
  rw [hkey4, hkey3, hkey, hev4, hev3, hev, ← hx]
  split
  · rename_i hr
    rw [judged_of_rectangle hr, judged_of_rectangle hr]
    exact ⟨hdeb, hnone⟩
  · exact admitKey_judged hdeb hnone ‹_› _ _

/-! ### A key that is held (R142, R143) -/

theorem reachesLong_iff (ks : Scanner) (hold : Nat) :
    ks.reachesLong hold = true ↔ ks.longTime ≠ 0#8 ∧ ks.longTime.toNat * 20 ≤ hold := by simp [Scanner.reachesLong]

theorem reachesRepeat_iff (ks : Scanner) (t : Nat) :
    ks.reachesRepeat t = true ↔ ks.rept ≠ 0#8 ∧ ks.rept.toNat * 20 ≤ t := by simp [Scanner.reachesRepeat]

/-- Stage 4 for a DOWN key. -/
theorem timeKey_of_down {wasCounted : Fin 48 → Bool} {acc : Stage} {key : Key} (len : Nat) (hk : acc.1.keys[k] = key)
    (hs : key.state = .down) (hw : wasCounted k = true) : timeKey wasCounted len acc k =
      if acc.1.reachesLong (satTime key.hold len) then
        (acc.1.setKey k { key with state := .long, hold := satTime key.hold len, rept := 0, ordinal := 0 },
          acc.2 ++ [keyEvent .keyLong k 0])
      else (acc.1.setKey k { key with hold := satTime key.hold len }, acc.2) := by
  unfold timeKey
  dsimp only
  rw [hk, hs, hw]
  rfl

/-- Stage 4 for a LONG key. -/
theorem timeKey_of_long {wasCounted : Fin 48 → Bool} {acc : Stage} {key : Key} (len : Nat) (hk : acc.1.keys[k] = key)
    (hs : key.state = .long) (hw : wasCounted k = true) : timeKey wasCounted len acc k =
      if acc.1.reachesRepeat (satTime key.rept len) then
        (acc.1.setKey k { key with
            hold := satTime key.hold len, rept := satTime key.rept len % (acc.1.rept.toNat * 20)
            ordinal := counted key.ordinal },
          acc.2 ++ [keyEvent .keyRepeat k (counted key.ordinal)])
      else (acc.1.setKey k { key with hold := satTime key.hold len, rept := satTime key.rept len }, acc.2) := by
  unfold timeKey
  dsimp only
  rw [hk, hs, hw]
  rfl

/-- A counted key that is not released reaches stage 4 with its debounce counter alone changed. -/
theorem scan_of_counted (len : Nat) (hf : ks.flips raw k = false) (hc : (ks.keyState k).isCounted = true) :
    ∃ pre : Stage, pre.1 = { ks with keys := pre.1.keys } ∧ pre.1.keys[k] = ks.debounced raw k ∧
      eventsAbout k pre.2 = [] ∧
      (ks.scan raw len).1.keys[k] = (timeKey (fun j => (ks.keyState j).isCounted) len pre k).1.keys[k] ∧
      eventsAbout k (ks.scan raw len).2 = eventsAbout k (timeKey (fun j => (ks.keyState j).isCounted) len pre k).2 := by
  have hne {st : KeyState} (hst : st.isCounted = false) : ks.keyState k ≠ st := fun h => by simp [h, hst] at hc
  obtain ⟨hkey2, hev2⟩ := afterReview_of_settled (raw := raw) (.inl hf) (hne rfl) (hne rfl)
  obtain ⟨hkey3, hev3⟩ := afterPress_skip ks raw k (by simp [hf])
  obtain ⟨pre, hset, hkey, hev, hpre, hpreEv⟩ := scan_at ks raw len k
  exact ⟨pre, hset, hpre.trans (hkey3.trans hkey2), hpreEv.trans (hev3.trans hev2), hkey, hev⟩

/-- A DOWN key that is not released (R142). -/
theorem scan_of_down (len : Nat) (hf : ks.flips raw k = false) (hs : ks.keyState k = .down) :
    (ks.scan raw len).1.keys[k] = (if ks.reachesLong (satTime ks.keys[k].hold len) then
        { state := .long, deb := ks.nextDeb raw k, hold := satTime ks.keys[k].hold len, rept := 0, ordinal := 0 }
      else { ks.debounced raw k with hold := satTime ks.keys[k].hold len }) ∧
    eventsAbout k (ks.scan raw len).2 =
      if ks.reachesLong (satTime ks.keys[k].hold len) then [keyEvent .keyLong k 0] else [] := by
  obtain ⟨pre, hset, hpre, hnone, hkey, hev⟩ := scan_of_counted len hf (by rw [hs]; rfl)
  have hreach (n : Nat) : pre.1.reachesLong n = ks.reachesLong n := by rw [hset]; rfl
  rw [timeKey_of_down len hpre hs (by rw [hs]; rfl), hreach, debounced_hold] at hkey hev
  rw [hkey, hev]
  split
  · exact ⟨setKey_same _ _ _, by rw [eventsAbout_append_keyEvent, hnone]; rfl⟩
  · exact ⟨setKey_same _ _ _, hnone⟩

/-- A LONG key that is not released (R143). -/
theorem scan_of_long (len : Nat) (hf : ks.flips raw k = false) (hs : ks.keyState k = .long) :
    (ks.scan raw len).1.keys[k] = (if ks.reachesRepeat (satTime ks.keys[k].rept len) then
        { state := .long, deb := ks.nextDeb raw k, hold := satTime ks.keys[k].hold len
          rept := satTime ks.keys[k].rept len % (ks.rept.toNat * 20), ordinal := counted ks.keys[k].ordinal }
      else { ks.debounced raw k with hold := satTime ks.keys[k].hold len, rept := satTime ks.keys[k].rept len }) ∧
    eventsAbout k (ks.scan raw len).2 = if ks.reachesRepeat (satTime ks.keys[k].rept len)
      then [keyEvent .keyRepeat k (counted ks.keys[k].ordinal)] else [] := by
  obtain ⟨pre, hset, hpre, hnone, hkey, hev⟩ := scan_of_counted len hf (by rw [hs]; rfl)
  have hreach (n : Nat) : pre.1.reachesRepeat n = ks.reachesRepeat n := by rw [hset]; rfl
  have hrept : pre.1.rept = ks.rept := by rw [hset]
  have hstate : (ks.debounced raw k).state = .long := hs
  rw [timeKey_of_long len hpre hs (by rw [hs]; rfl), hreach, hrept, hstate, debounced_hold, debounced_rept,
    debounced_ordinal] at hkey hev
  rw [hkey, hev]
  split
  · exact ⟨setKey_same _ _ _, by rw [eventsAbout_append_keyEvent, hnone]; rfl⟩
  · exact ⟨(setKey_same _ _ _).trans (by rw [← hstate]; rfl), hnone⟩

end

end Sys2Proof.Machine

/-! The statements on one key through a scan, settled: release, press and waiting, long press and repeat. -/

namespace Sys2Proof.Proofs

open Sys2Proof.Machine

/-- Settles O12: the release is accepted in stage 1, and no later stage touches a key that is UP. -/
theorem debouncedRelease : Obligations.DebouncedRelease := by
  intro k keys s h ha hu hr hst hd
  have hp : (s.ks.keyState k).pressed = true := pressed_of_ne_up hst
  have hf : s.ks.flips keys k = true := flips_of_reading hu hr hp hd
  obtain ⟨hkey, hev⟩ := scan_of_release s.ks.clock hf hp
  refine ⟨_, exec_scanRow h ha rfl (by simp [State.releases, ScanReady.scanDue h ha, hf, hp]),
    (completeScan_key keys ha k).trans hkey, completeScan_jr keys ha, hev.trans ?_⟩
  rw [Scanner.keyState]
  cases s.ks.keys[k].state <;> rfl

/-- Settles O13: a press in stage 3 and a key that waits in stage 2, each judged against the scan on its way, and a key that
stays UP. -/
theorem pressesAndWaitingKeys : Obligations.PressesAndWaitingKeys := by
  unfold Obligations.PressesAndWaitingKeys
  intro corner rectangle counted
  have hrect (x : Scanner) (k : Fin 48) : rectangle x k ↔ x.completesRectangle k = true := (completesRectangle_iff x k).symm
  have hcount (x : Scanner) : counted x = x.countedKeys := countedKeys_eq x
  simp only [hrect, hcount]
  refine ⟨fun k keys s h ha hu hr hst hd => ?_, fun k keys s h ha hw hf => ?_, fun k keys s h ha hst hu hd => ?_⟩
  · have hup : s.ks.keyState k = .up := hst
    have hf : s.ks.flips keys k = true := flips_of_reading hu hr (by rw [hup]; rfl) hd
    have hdue : s.presses k keys = true := by simp [State.presses, ScanReady.scanDue h ha, hf, hup, KeyState.pressed]
    obtain ⟨hkey, hev⟩ := scan_of_press s.ks.clock hf hup
    rw [Scanner.debounced, nextDeb_flip s.ks keys k hf, ← completeScan_key keys ha k] at hkey
    exact ⟨_, exec_scanRow h ha rfl hdue, completeScan_jr keys ha, judged_cases hkey hev⟩
  · have hp : (s.ks.keyState k).pressed = true := by
      rw [Scanner.keyState]
      rcases hw with hw | hw <;> rw [hw] <;> rfl
    obtain ⟨hkey, hev⟩ := scan_of_waiting s.ks.clock hf hw
    rw [Scanner.debounced, nextDeb_of_pressed s.ks keys k hp hf, ← completeScan_key keys ha k] at hkey
    exact ⟨_, exec_scanCompletion_of_ready keys h (oscillatorDue_of_awake ha), completeScan_jr keys ha,
      judged_cases hkey hev⟩
  · obtain ⟨hdeb, hf⟩ := nextDeb_of_up (raw := keys) hst hu hd
    obtain ⟨hkey, hev⟩ := scan_of_up s keys k hst hf
    refine ⟨_, exec_scanCompletion_of_ready keys h (oscillatorDue_of_awake ha), hev, ?_⟩
    rw [completeScan_key keys ha k, hkey, hdeb]

/-- Settles O14: stage 4, which alone touches a counted key that is not released. -/
theorem keyLongAndRepeat : Obligations.KeyLongAndRepeat := by
  intro k keys s h ha hf deb hold rept
  have hscan := exec_scanCompletion_of_ready keys h (oscillatorDue_of_awake ha)
  have hdue := ScanReady.scanDue h ha
  have hdeb (hc : (s.ks.keyState k).pressed = true) : s.ks.nextDeb keys k = deb := nextDeb_of_pressed s.ks keys k hc hf
  refine ⟨fun (hst : s.ks.keyState k = .down) hl hn => ?_, fun (hst : s.ks.keyState k = .down) hn => ?_,
    fun (hst : s.ks.keyState k = .long) hl hn => ?_, fun (hst : s.ks.keyState k = .long) hn => ?_⟩
  · have hreach : s.ks.reachesLong (satTime s.ks.keys[k].hold s.ks.clock) = true := (reachesLong_iff ..).2 ⟨hl, hn⟩
    obtain ⟨hkey, hev⟩ := scan_of_down s.ks.clock hf hst
    rw [if_pos hreach] at hkey hev
    rw [hdeb (by rw [hst]; rfl)] at hkey
    exact ⟨_, exec_scanRow h ha rfl (by simp only [State.becomesLong, hdue, hst, hf, hreach]; rfl),
      (completeScan_key keys ha k).trans hkey, completeScan_jr keys ha, hev⟩
  · have hreach : ¬s.ks.reachesLong (satTime s.ks.keys[k].hold s.ks.clock) = true := fun hr => by
      obtain ⟨hl, hle⟩ := (reachesLong_iff ..).1 hr
      exact hn.elim hl fun hlt => Nat.not_le.2 hlt hle
    obtain ⟨hkey, hev⟩ := scan_of_down s.ks.clock hf hst
    rw [if_neg hreach] at hkey hev
    rw [Scanner.debounced, hdeb (by rw [hst]; rfl)] at hkey
    exact ⟨_, hscan, hev, (completeScan_key keys ha k).trans hkey⟩
  · have hreach : s.ks.reachesRepeat (satTime s.ks.keys[k].rept s.ks.clock) = true := (reachesRepeat_iff ..).2 ⟨hl, hn⟩
    obtain ⟨hkey, hev⟩ := scan_of_long s.ks.clock hf hst
    rw [if_pos hreach] at hkey hev
    rw [hdeb (by rw [hst]; rfl)] at hkey
    exact ⟨_, exec_scanRow h ha rfl (by simp only [State.repeats, hdue, hst, hf, hreach]; rfl),
      (completeScan_key keys ha k).trans hkey, completeScan_jr keys ha, hev⟩
  · have hreach : ¬s.ks.reachesRepeat (satTime s.ks.keys[k].rept s.ks.clock) = true := fun hr => by
      obtain ⟨hl, hle⟩ := (reachesRepeat_iff ..).1 hr
      exact hn.elim hl fun hlt => Nat.not_le.2 hlt hle
    obtain ⟨hkey, hev⟩ := scan_of_long s.ks.clock hf hst
    rw [if_neg hreach] at hkey hev
    rw [Scanner.debounced, hdeb (by rw [hst]; rfl)] at hkey
    exact ⟨_, hscan, hev, (completeScan_key keys ha k).trans hkey⟩

end Sys2Proof.Proofs

/-! SUPPORT. Wake scans and the frames that wake the part in SLEEP. -/

namespace Sys2Proof.Machine

/-! ### Wake scans (R146) -/

/-- The step of a wake scan: the part stays in SLEEP or enters WAKING. -/
theorem exec_wakeScan_of_ready (keys : BitVec 48) {s : State} (h : s.ScanReady) (hs : s.pr.state = .sleep) :
    exec (.wakeScan keys) s = .next (s.completeScan keys) := by
  have hn : s.pr.state ≠ .waking := by simp [hs]
  have hstay : (s.completeScan keys).pr.state ≠ .settling := by
    rw [completeScan_sleep keys hs]
    cases s.ks.lowestPressed keys <;> simp [hs]
  have hdue : s.wakeScanDue = true := by simp [State.wakeScanDue, h.due, hs]
  simp only [exec, execWakeScan]
  rw [scanEvent_of_due h.running h.restart (oscillatorDue_of_not_waking hn) hdue, endOfStep_of_not_settling _ hstay]

/-- The lowest used key that reads pressed. -/
theorem lowestPressed_of_first {ks : Scanner} {keys : BitVec 48} {k : Fin 48} (hu : ks.used k = true)
    (hr : keys.getLsbD k.val = true) (hfirst : ∀ j : Fin 48, j < k → ks.used j = true → keys.getLsbD j.val = false) :
    ks.lowestPressed keys = some k := by
  refine find?_finRange_of_first (by rw [hu, hr]; rfl) fun j hj => ?_
  cases huj : ks.used j with
  | false => rfl
  | true => rw [hfirst j hj huj]; rfl

theorem lowestPressed_of_none {ks : Scanner} {keys : BitVec 48}
    (h : ∀ k : Fin 48, ks.used k = true → keys.getLsbD k.val = false) : ks.lowestPressed keys = none := by
  refine List.find?_eq_none.2 fun k _ => ?_
  cases hu : ks.used k with
  | false => simp
  | true => rw [h k hu]; simp

/-! ### The link wake test (R189) -/

/-- A valid frame that wakes the part: a plain ROLLCALL while the link takes part in the protocol, or a BEACON with WAKE set. -/
theorem wakesFor_valid_iff (s : State) (f : Frame) : s.wakesFor (.valid f) = true ↔
    (f.kind = .rollcall ∧ f.body = [] ∧ (s.link.state = .listen ∨ s.link.state = .joined ∨ s.link.state = .hushed)) ∨
      (f.kind = .beacon ∧ (byteAt f.body 0).getLsbD 1 = true) := by
  rw [← attending_iff]
  cases hk : f.kind <;> simp [State.wakesFor, hk]

theorem wakesFor_iff (s : State) (c : FrameClass) : s.wakesFor c = true ↔ ∃ f : Frame, c = .valid f ∧
    ((f.kind = .rollcall ∧ f.body = [] ∧
        (s.link.state = .listen ∨ s.link.state = .joined ∨ s.link.state = .hushed)) ∨
      (f.kind = .beacon ∧ (byteAt f.body 0).getLsbD 1 = true)) := by
  simp only [← wakesFor_valid_iff]
  cases c with
  | valid f => simp
  | badFormat | badCrc | unknownKind | misdirected => simp [State.wakesFor]

/-- The wake test of a frame written out and received: R28's tests come first. -/
theorem wakesFor_classify (s : State) (own : BitVec 5) (f : Frame) (h : f.body.length ≤ 48) :
    s.wakesFor (classify own ((onLine f.bytes).foldl Receiver.receive Receiver.start)) =
      (f.directionOk && f.bodyOk && f.addressed own && s.wakesFor (.valid f)) := by
  rw [classify_frame own f h]
  cases f.directionOk <;> cases f.bodyOk <;> cases f.addressed own <;> rfl

/-! ### A frame in SLEEP and in WAKING (R188 to R190) -/

/-- The state after a frame that was not acted on. -/
def State.unheard (s : State) : State := { s with link.rx := Receiver.completed }

/-- The state after a frame that woke the part. -/
def State.wokenByLink (s : State) : State :=
  { s with
    link.rx := Receiver.completed, ks.clock := 0, ks.due := false
    pr := { s.pr with state := .waking, request := some (.link, 0), wakeTicks := 0 } }

/-- In SLEEP a completed frame is tested for a wake alone. -/
theorem frameEvent_of_sleep {bytes : State → List RxByte} {s : State} (h : s.frameReady) (hs : s.pr.state = .sleep) :
    frameEvent bytes s = if s.wakesFor (classify s.link.addr ((bytes s).foldl Receiver.receive Receiver.start))
      then s.wokenByLink else s.unheard := by
  have hr := h.2.2
  have hc : s.completeFrame (bytes s) = if s.wakesFor (classify s.link.addr ((bytes s).foldl Receiver.receive Receiver.start))
      then s.wokenByLink else s.unheard := by
    simp only [State.completeFrame, hs, hr]
    refine ite_congr rfl (fun _ => requestWake_of_sleep .link 0 hs) fun _ => rfl
  rw [frameEvent_of_ready h, hc]
  split
  · exact endOfStep_of_not_settling _ nofun
  · exact endOfStep_of_not_settling _ (by rw [State.unheard, hs]; nofun)

/-- In WAKING a completed frame is ignored. -/
theorem frameEvent_of_waking {bytes : State → List RxByte} {s : State} (h : s.frameReady) (hs : s.pr.state = .waking) :
    frameEvent bytes s = s.unheard := by
  have hc : s.completeFrame (bytes s) = s.unheard := by
    simp only [State.completeFrame, hs]
    rfl
  rw [frameEvent_of_ready h, hc]
  exact endOfStep_of_not_settling _ (by rw [State.unheard, hs]; nofun)

end Sys2Proof.Machine

namespace Sys2Proof.Proofs

open Sys2Proof.Machine

/-- Settles O15: the lowest used key that reads pressed, then the wake test of R189 on the class of the frame. -/
theorem wakeRequests : Obligations.WakeRequests := by
  refine ⟨fun keys s h hs => ?_, fun s h => ⟨fun hs => ⟨fun hd hl => ?_, fun hl => ?_, fun flags time => ?_, fun rx => ?_⟩,
    fun hs rx => congrArg _ (frameEvent_of_waking h hs)⟩⟩
  · rw [exec_wakeScan_of_ready keys h hs, completeScan_sleep keys hs]
    refine ⟨fun k hu hr hfirst => ?_, fun hnone => ?_⟩
    · rw [lowestPressed_of_first hu hr hfirst]
    · rw [lowestPressed_of_none hnone]
  · have hw := (wakesFor_valid_iff s ⟨s.link.addr, 0, .rollcall, false, 0, []⟩).2 (.inl ⟨rfl, rfl, hl⟩)
    refine congrArg _ ((frameEvent_of_sleep h hs).trans (if_pos ?_))
    rw [wakeFrame, unicast, headFrame, wakesFor_classify _ _ _ (by simp), addressed_unicast hd .rollcall rfl, hw]
    rfl
  · have hw : s.wakesFor (.valid ⟨s.link.addr, 0, .rollcall, false, 0, []⟩) = false := by
      simp [State.wakesFor, State.attending, hl]
    refine congrArg _ ((frameEvent_of_sleep h hs).trans (if_neg ?_))
    rw [wakeFrame, unicast, headFrame, wakesFor_classify _ _ _ (by simp), hw]
    simp
  · refine (congrArg _ (frameEvent_of_sleep h hs)).trans ?_
    rw [wakeFrame, broadcast, headFrame, wakesFor_classify _ _ _ (by simp [bytes32])]
    show Host.Outcome.next (if flags.getLsbD 1 = true then s.wokenByLink else s.unheard) = _
    split <;> rfl
  · have hw := wakesFor_iff s (classify s.link.addr (rx.foldl Receiver.receive Receiver.start))
    exact ⟨fun hwakes => congrArg _ ((frameEvent_of_sleep h hs).trans (if_pos (hw.2 hwakes))),
      fun hwakes => congrArg _ ((frameEvent_of_sleep h hs).trans (if_neg fun hc => hwakes (hw.1 hc)))⟩

end Sys2Proof.Proofs

/-! SUPPORT. Entry into SLEEP, and the statement on it. -/

namespace Sys2Proof.Machine

theorem sleepDue_iff (s : State) : s.sleepDue = true ↔
    s.pr.state = .settling ∧ s.link.rx.cond ≠ .receiving ∧ s.link.tx = .idle ∧ s.pins.csnLow = false := by
  simp [State.sleepDue, State.quiescent, and_assoc]

/-- Where nothing comes first, the row SLEEP_ENTRY is the test at the end of a step. -/
theorem exec_sleepEntry_of_ready {s : State} (h : s.Ready) : exec .sleepEntry s = .next s.endOfStep := by
  simp only [exec, execSleepEntry, onMoment, h.running, Ready.settle h, State.endOfStep, Bool.false_eq_true, if_false]

/-- R145: the forced release at the entry into SLEEP, its records met by the journal as it was. -/
theorem enterSleep_of_enabled_eq {s : State} (h : s.ks.en = true) : s.enterSleep = { s with
    pr.state := .sleep
    ks := s.ks.allUp
    jr := (s.recordAll s.ks.forcedEvents).jr
    ia.flags1 := (s.recordAll s.ks.forcedEvents).ia.flags1
    lm := s.lm.takeDown 0#48 } := by
  obtain ⟨hj, hf⟩ := recordAll_congr s.ks.forcedEvents { s with pr.state := .sleep } s rfl rfl rfl rfl
  rw [enterSleep_of_enabled s h, forcedRelease_eq, allUp_downSet, ← hj, ← hf]

end Sys2Proof.Machine

namespace Sys2Proof.Proofs

open Sys2Proof.Machine

/-- Settles O16: the sleep-entry test, then the forced release written out. -/
theorem sleepEntry : Obligations.SleepEntry := by
  intro s
  simp only [← sleepDue_iff]
  refine ⟨exec_sleepEntry_of_ready, fun hd => if_neg hd, fun hs hr ht hc => ?_⟩
  have he : s.endOfStep = s.enterSleep := if_pos ((sleepDue_iff s).2 ⟨hs, hr, ht, hc⟩)
  rw [he]
  refine ⟨fun n => lampDuty_of_dark (.inl ?_), enterSleep_of_disabled s, fun hen => ⟨enterSleep_of_enabled_eq hen,
    forcedEvents_eq s.ks⟩⟩
  rw [State.awake, enterSleep_state]
  nofun

end Sys2Proof.Proofs

/-! SUPPORT. A sense input that flips, inside its tick; and the statement on it. -/

namespace Sys2Proof.Machine

/-- A tick of RUN, DOZE or SETTLING hands its records to the journal: the lamps' first, then the inputs'. -/
theorem tick_jr (sns : BitVec 4) {s : State} (ha : s.awake = true) :
    (s.tick sns).jr = (s.tickBase.recordAll (s.lm.tickEvents ++ s.st.sampleEvents sns)).jr := by
  rw [tick_awake sns s ha]

section
variable {i : SenseInput} {raw : Bool}

/-- The DEBOUNCE-th sample in a row that differs makes a primed input flip (R152). -/
theorem senseInput_flips_of_due (he : i.en = true) (hp : i.primed = true) (hr : raw ≠ i.level)
    (hc : i.debounce.toNat ≤ i.counter + 1) : i.flips raw = true := by
  simp [SenseInput.flips, he, hp, hr, hc]

/-- A flip makes one record, and only where EDGE selects it (R153). -/
theorem sampleEvents_of_flip (n : Fin 4) (h : i.flips raw = true) : i.sampleEvents n raw =
    if i.edge.selects raw then
      [{ kind := if raw then .senseRise else .senseFall, subject := BitVec.ofNat 8 n.val, detail := 0 }]
    else [] := by
  rw [SenseInput.sampleEvents, h, Bool.true_and]

end

end Sys2Proof.Machine

namespace Sys2Proof.Proofs

open Sys2Proof.Machine

/-- Settles O7: the tick samples the input by itself, and the sample is the one that makes it flip. -/
theorem senseFlip : Obligations.SenseFlip := by
  intro n sns s h ha he hp hr hc
  have hf : s.st.inputs[n].flips (sns.getLsbD n.val) = true := senseInput_flips_of_due he hp hr hc
  have hdue : s.senseFlips n sns = true := by rw [State.senseFlips, ha, hf]; rfl
  refine ⟨s.tick sns, congrArg _ (Ready.onEvent_of_due h hdue),
    (tick_input sns ha n).trans (sample_of_flip he hp hr hc), tick_jr sns ha, (sampleEvents_of_flip n hf).trans ?_⟩
  cases s.st.inputs[n].edge <;> cases sns.getLsbD n.val <;> rfl

end Sys2Proof.Proofs

/-! SUPPORT. The end of a timed lamp phase, inside its tick; and the statement on it. -/

namespace Sys2Proof.Machine

section
variable {l : Lamp}

theorem lamp_ends_of_due (ht : l.phase.timed = true) (hr : l.remaining ≤ 1) : l.ends = true := by
  simp [Lamp.ends, ht, hr]

theorem lamp_tick_of_ends (h : l.ends = true) : l.tick = l.nextPhase := if_pos h

/-- R171: the count of a blink runs out. -/
theorem nextPhase_of_lastBlink (hp : l.phase = .blinkLit) (hc : l.count = 1) :
    l.nextPhase = { l with phase := .off, level := 0, remaining := 0, count := 0 } := by
  rw [Lamp.nextPhase, hp]
  exact if_pos hc

/-- R171: a blink goes on into its dark part, with one less of its count left. -/
theorem nextPhase_of_blinkLit (hp : l.phase = .blinkLit) (hc : l.count ≠ 1) :
    l.nextPhase = { l with phase := .blinkDark, remaining := l.loff.toNat * 10, count := l.count - 1 } := by
  rw [Lamp.nextPhase, hp]
  exact if_neg hc

theorem nextPhase_of_blinkDark (hp : l.phase = .blinkDark) :
    l.nextPhase = { l with phase := .blinkLit, remaining := l.lon.toNat * 10 } := by rw [Lamp.nextPhase, hp]

theorem nextPhase_of_pulseWait (hp : l.phase = .pulseWait) :
    l.nextPhase = { l with phase := .pulseLit, remaining := l.lwidth.toNat * 10 } := by rw [Lamp.nextPhase, hp]

theorem nextPhase_of_pulseLit (hp : l.phase = .pulseLit) :
    l.nextPhase = { l with phase := .off, level := 0, remaining := 0 } := by rw [Lamp.nextPhase, hp]

/-- R173: of the phases that end, the last of a blink and the lit one of a pulse make a record. -/
theorem endEvents_of_ends (n : Fin 12) (h : l.ends = true) : l.endEvents n =
    if l.phase = .blinkLit ∧ l.count = 1 then [{ kind := .lampEnd, subject := BitVec.ofNat 8 n.val, detail := 0 }]
    else if l.phase = .pulseLit then [{ kind := .lampEnd, subject := BitVec.ofNat 8 n.val, detail := 1 }]
    else [] := by
  simp [Lamp.endEvents, h]

end

end Sys2Proof.Machine

namespace Sys2Proof.Proofs

open Sys2Proof.Machine

/-- Settles O10: the tick treats the lamp by itself, and R171's table is read phase by phase. -/
theorem phaseEnd : Obligations.PhaseEnd := by
  intro n sns s h ha ht hr
  have hends := lamp_ends_of_due ht hr
  have hdue : s.phaseEnds n = true := by rw [State.phaseEnds, ha, hends]; rfl
  have hlm := tick_lm sns ha
  have hlamp : (s.tick sns).lm.lamps[n] = s.lm.lamps[n].nextPhase := by
    rw [hlm, lamps_tick_getElem, lamp_tick_of_ends hends]
  refine ⟨s.tick sns, congrArg _ (Ready.onEvent_of_due h hdue), tick_jr sns ha, by rw [hlm]; rfl, by rw [hlm]; rfl, ?_⟩
  rw [hlamp, endEvents_of_ends n hends]
  cases hp : s.lm.lamps[n].phase with
  | blinkLit =>
    by_cases hc : s.lm.lamps[n].count = 1
    · exact (if_pos hc).mpr ⟨nextPhase_of_lastBlink hp hc, if_pos ⟨rfl, hc⟩⟩
    · exact (if_neg hc).mpr ⟨nextPhase_of_blinkLit hp hc, if_neg fun hlast => hc hlast.2⟩
  | blinkDark => exact ⟨nextPhase_of_blinkDark hp, rfl⟩
  | pulseWait => exact ⟨nextPhase_of_pulseWait hp, rfl⟩
  | pulseLit => exact ⟨nextPhase_of_pulseLit hp, rfl⟩
  | off | on | followLit | followDark => rw [hp] at ht; cases ht

end Sys2Proof.Proofs

/-! SUPPORT. The lamp commands of LGO and the binding of LBIND on the lamp that the writer selects; and the statement on them. -/

namespace Sys2Proof.Machine

theorem pulsing_iff (p : LampPhase) : p.pulsing = true ↔ p = .pulseWait ∨ p = .pulseLit := by cases p <;> decide

theorem following_iff (p : LampPhase) : p.following = true ↔ p = .followLit ∨ p = .followDark := by cases p <;> decide

section
variable {l : Lamp} {level : BitVec 4} {down : BitVec 48}

/-- R168: a PULSE without a delay is lit at once. -/
theorem lamp_run_pulse_of_prompt (h : l.ldelay = 0#8) : l.run .pulse level down =
    { l with phase := .pulseLit, level := level, remaining := l.lwidth.toNat * 10, count := 0 } := if_pos h

theorem lamp_run_pulse_of_delayed (h : l.ldelay ≠ 0#8) : l.run .pulse level down =
    { l with phase := .pulseWait, level := level, remaining := l.ldelay.toNat * 10, count := 0 } := if_neg h

/-- R172: a lamp in FOLLOW follows its new key at once. -/
theorem rebind_of_following (v : Byte) (h : l.phase.following = true) : l.rebind v down =
    { l with bind := v, phase := if down.getLsbD v.toNat then .followLit else .followDark } := if_pos h

theorem rebind_of_not_following (v : Byte) (h : ¬l.phase.following = true) : l.rebind v down = { l with bind := v } :=
  if_neg h

end

section
variable {s : State} {m : Master} {v : Byte}

/-- R165, R167, R169: an LGO by a master that the lamp's controller admits is refused for a retriggered PULSE or for a value that
names no op. -/
theorem check_lgo_of_admitted (h : (s.selLamp m).ctrl.admits m = true) : s.check m .lgo v =
    if s.busy m .lgo v then some .busy else if outOfRange .lgo v then some .range else none := by
  have hn : s.notOwner m .lgo v = false := by simp [State.notOwner, Reg.writeClass, h]
  have hm : s.mismatch .lgo v = false := rfl
  simp [State.check, Reg.writeClass, hn, hm]

/-- An LGO that is admitted runs its op on the selected lamp, which the hearing of a POKE leaves as it was. -/
theorem writeBy_lgo (hs : s.writeReady m 0xBA#8) (h : (s.selLamp m).ctrl.admits m = true) (hb : s.busy m .lgo v = false)
    (hv : outOfRange .lgo v = false) {x : Lamp}
    (hx : (s.selLamp m).run (lgoOp v) (s.copies m).lgoLevel s.lm.down = x) : writeBy m 0xBA#8 v s =
      State.closed m { s.opened m with lm.lamps := s.lm.lamps.set (s.copies m).lsel x } := by
  have hc : s.check m (regAt 0xBA#8) v = none := (check_lgo_of_admitted h).trans (by simp [hb, hv])
  subst hx
  rw [writeBy_accepted hs hc nofun]
  cases m <;> rfl

/-- R169: a PULSE while the lamp is in PULSE. -/
theorem writeBy_lgo_of_busy (hs : s.writeReady m 0xBA#8) (h : (s.selLamp m).ctrl.admits m = true)
    (hp : (s.selLamp m).phase.pulsing = true) : writeBy m 0xBA#8 3#8 s = s.refusedWrite m 0xBA#8 .busy := by
  have hb : s.busy m .lgo 3#8 = true := hp
  exact writeBy_refused hs ((check_lgo_of_admitted h).trans (if_pos hb))

theorem writeBy_lbind (hs : s.writeReady m 0xB2#8) (ho : s.owns m .lamp) {x : Lamp}
    (hx : (s.selLamp m).rebind v s.lm.down = x) : writeBy m 0xB2#8 v s =
      State.closed m { s.opened m with lm.lamps := s.lm.lamps.set (s.copies m).lsel x } := by
  subst hx
  rw [writeBy_owned hs (r := .lbind) rfl rfl ho rfl rfl nofun]
  cases m <;> rfl

end

end Sys2Proof.Machine

namespace Sys2Proof.Proofs

open Sys2Proof.Machine

/-- Settles O52: LGO by whether the lamp's controller admits the writer, then LBIND by whether the lamp is in FOLLOW. -/
theorem lampCommandsAndBinding : Obligations.LampCommandsAndBinding := by
  refine ⟨fun m s hs => ?_, fun m v s hs ho => ?_⟩
  · intro n l level gives excluded
    refine ⟨fun hnot => ?_, fun hexcl => ?_⟩
    · have hadm : l.ctrl.admits m = true := by simpa using mt (admits_iff _ _).1 hnot
      refine ⟨congrArg _ (writeBy_lgo hs hadm rfl rfl rfl), congrArg _ (writeBy_lgo hs hadm rfl rfl rfl),
        congrArg _ (writeBy_lgo hs hadm rfl rfl rfl), fun hwait hlit => ?_, fun hp => ?_,
        congrArg _ (writeBy_lgo hs hadm rfl rfl rfl)⟩
      · have hidle : s.busy m .lgo 3#8 = false := by
          have hp : ¬l.phase.pulsing = true := fun hp => ((pulsing_iff _).1 hp).elim hwait hlit
          exact Bool.eq_false_iff.2 hp
        exact ⟨fun hd => congrArg _ (writeBy_lgo hs hadm hidle rfl (lamp_run_pulse_of_prompt hd)),
          fun hd => congrArg _ (writeBy_lgo hs hadm hidle rfl (lamp_run_pulse_of_delayed hd))⟩
      · exact congrArg _ (writeBy_lgo_of_busy hs hadm ((pulsing_iff _).2 hp))
    · have refused (v : Byte) : writeBy m 0xBA#8 v s = s.refusedWrite m 0xBA#8 .notOwner :=
        writeBy_refused hs (check_lgo_excluded hexcl)
      exact ⟨congrArg _ (refused _), congrArg _ (refused _), congrArg _ (refused _), congrArg _ (refused _),
        congrArg _ (refused _)⟩
  · intro n l gives
    refine ⟨fun hf => ?_, fun hnlit hndark => ?_⟩
    · exact congrArg _ (writeBy_lbind hs ho (rebind_of_following v ((following_iff _).2 hf)))
    · exact congrArg _ (writeBy_lbind hs ho
        (rebind_of_not_following v fun hf => ((following_iff _).1 hf).elim hnlit hndark))

end Sys2Proof.Proofs

/-! SUPPORT. The power-on state of Table 11-1 has the relations that every step keeps; and the statement on the state after reset. -/

namespace Sys2Proof.Machine

/-- The model's initial state is what the power-on step makes of it, with the straps all low (R193). -/
theorem reset_powerOnReset : State.reset.powerOnReset State.resetStraps = State.reset := rfl

/-- The power-on port waits for a command, or for the rise of CSN. -/
theorem powerOnReset_portSound (p : Straps) (s : State) : (s.powerOnReset p).PortSound := portSound_of_reset rfl

theorem powerOnReset_powerSound (p : Straps) (s : State) : (s.powerOnReset p).PowerSound := powerSound_of_run rfl rfl rfl

theorem powerOnReset_journalRelations (p : Straps) (s : State) : (s.powerOnReset p).JournalRelations := .ofNil rfl rfl rfl

end Sys2Proof.Machine

namespace Sys2Proof.Proofs

open Sys2Proof.Machine

/-- Settles O60: the state is a power-on state, and a power-on step makes every block's relations hold, whatever was there before. -/
theorem resetIsSound : Obligations.ResetIsSound := by
  unfold Obligations.ResetIsSound
  rw [← reset_powerOnReset]
  generalize State.reset = s, State.resetStraps = p
  obtain ⟨hlocks, hrefusals⟩ := powerOnReset_booked p s
  have houtbound := (outboundRelations_iff _).1 (powerOnReset_outboundRelations p s)
  have hkeys := (keysRelations_iff _).1 (powerOnReset_keysRelations p s)
  have hrecords := (recordsSound_iff _).1 (powerOnReset_recordsSound p s)
  exact ⟨hlocks, hrefusals, powerOnReset_portSound p s, powerOnReset_powerSound p s, powerOnReset_linkSound p s,
    houtbound, (powerOnReset_journalRelations p s).sound, hkeys, hrecords⟩

end Sys2Proof.Proofs
